-- ==== Sys2Proof/Word.lean ====
section
/-! DEFINITION. The word types of the link, the lanes and the records (11_frame_and_record_layouts.md, opening). -/

namespace Sys2Proof

/-- A byte of a link frame or a lane message. -/
abbrev Byte := BitVec 8

/-- A 48-bit pallet tag (R25). -/
abbrev Tag := BitVec 48

/-- A site clock time or a sum of one with a duration. R188: such sums are formed in full, so they are whole numbers. -/
abbrev Time := Nat

/-- A temperature in tenths of a degree (00_scope.md 5.1). -/
abbrev Temp := Int

end Sys2Proof
end

