-- ==== Sys2Proof/Syntax.lean ====
section
/-! DEFINITION. The commands: one constructor for each of the 90 rows of spec/opcode_table.json.

A request row is the HAND-OFF of the request at the head of LKP's queues (R174); its tag and arguments stand in the queued
frame, so it has no operand. A lane report row carries the bytes of the answer as they stand on the lane. A command that can
change the operating mode carries the order in which the blocks take the notices, which R184 leaves open (log entry 4). -/

namespace Sys2Proof

/-- The four plant lanes (R158). -/
inductive Lane where
  | door | probe | evap | term
deriving DecidableEq, Repr

/-- The blocks that act on a mode-change notice (table of 10.1). PDR, CTB and ALT get the notice too and do nothing with it
(R19, R45, R157). -/
inductive Block where
  | mds | dkc | tsu | dfc | lpl
deriving DecidableEq, Repr

/-- Every block that acts on a mode-change notice, once. -/
def Block.all : List Block := [.mds, .dkc, .tsu, .dfc, .lpl]

/-- The MOVE_SOURCE strap (R184, R186). -/
inductive Strap where
  | hostOnly | terminal
deriving DecidableEq, Repr

/-- The commands. -/
inductive Instr where
  /-- EXCHANGE_BEGIN (R171). -/
  | exchangeBegin
  /-- EXCHANGE_END (R172). -/
  | exchangeEnd (received : List Byte)
  /-- UNKNOWN_REQUEST (R174). -/
  | unknownRequest
  /-- READ_IDENT (R181). -/
  | readIdent
  /-- READ_ATTENTION (R179). -/
  | readAttention
  /-- ATTENTION_MASK (R180). -/
  | attentionMask
  /-- SITE_SET (R189). -/
  | siteSet
  /-- START_SITE (R190). -/
  | startSite (order : List Block)
  /-- STOP_SITE (R192). -/
  | stopSite (order : List Block)
  /-- READ_MODE (R196). -/
  | readMode
  /-- LINK_RESET (R182). -/
  | linkReset
  /-- ROOM_SET (R13). -/
  | roomSet
  /-- SLOT_MAP_SET (R14). -/
  | slotMapSet
  /-- ROOM_READ (R15). -/
  | roomRead
  /-- ROOM_COUNT (R15). -/
  | roomCount
  /-- SLOT_READ (R16). -/
  | slotRead
  /-- SLOT_BLOCK (R17). -/
  | slotBlock
  /-- LANE_READ (R16). -/
  | laneRead
  /-- CLASS_SET (R21). -/
  | classSet
  /-- ADMIT (R29). -/
  | admission
  /-- FIND_TAG (R28). -/
  | findTag
  /-- PALLET_READ (R31). -/
  | palletRead
  /-- CENSUS (R32). -/
  | census
  /-- HOLD_SET (R34). -/
  | holdSet
  /-- HOLD_CLEAR (R35). -/
  | holdClear
  /-- RETIRE (R37). -/
  | retire
  /-- PLACE_CORRECT (R41). -/
  | placeCorrect
  /-- MOVE (R51). -/
  | move
  /-- MOVE_BATCH (R53). -/
  | moveBatch
  /-- MOVE_CANCEL (R68). -/
  | moveCancel
  /-- MOVE_REDIRECT (R74). -/
  | moveRedirect
  /-- MOVE_READ (R75). -/
  | moveRead
  /-- MOVE_COLLECT (R75). -/
  | moveCollect
  /-- DISPATCH_HOLD (R57). -/
  | dispatchHold
  /-- TERMINAL_SET (R56). -/
  | terminalSet
  /-- TERMINAL_READ (R75). -/
  | terminalRead
  /-- DOOR_SET (R79). -/
  | doorSet
  /-- DOOR_SEAL (R81). -/
  | doorSeal
  /-- DOOR_OPEN (R83). -/
  | doorOpen
  /-- DOOR_CLOSE (R85). -/
  | doorClose
  /-- DOOR_RELEASE (R87). -/
  | doorRelease
  /-- DOOR_READ (R100). -/
  | doorRead
  /-- DOOR_CLEAR_FAULT (R92). -/
  | doorClearFault
  /-- PROBE_SET (R107). -/
  | probeSet
  /-- THERMAL_SET (R114). -/
  | thermalSet
  /-- ROOM_TEMP_READ (R119). -/
  | roomTempRead
  /-- PROBE_READ (R119). -/
  | probeRead
  /-- EVAP_SET (R122). -/
  | evapSet
  /-- DEFROST_REQUEST (R127). -/
  | defrostRequest
  /-- DEFROST_ABORT (R141). -/
  | defrostAbort
  /-- EVAP_RELEASE (R140). -/
  | evapRelease
  /-- EVAP_READ (R143). -/
  | evapRead
  /-- ALARM_LIST (R154). -/
  | alarmList
  /-- ALARM_ACK (R153). -/
  | alarmAck
  /-- ALARM_READ (R155). -/
  | alarmRead
  /-- ALARM_OVERFLOW_CLEAR (R156). -/
  | alarmOverflowClear
  /-- LANE_ROUND (R160). -/
  | laneRound (lane : Lane)
  /-- MISSED_POLL (R163). -/
  | missedPoll (lane : Lane) (received : List Byte)
  /-- DOOR_STATUS (R80). -/
  | doorStatus (received : List Byte)
  /-- PROBE_SET_REPORT (R104). -/
  | probeSetReport (received : List Byte)
  /-- CONTROLLER_STATUS (R124). -/
  | controllerStatus (received : List Byte)
  /-- PICKED (R62). -/
  | picked (received : List Byte)
  /-- DROPPED (R63). -/
  | dropped (received : List Byte)
  /-- ABANDON (R65). -/
  | abandon (received : List Byte)
  /-- SUBMIT (R66). -/
  | submit (received : List Byte)
  /-- READY_REPORT (R67). -/
  | readyReport (received : List Byte)
  /-- COLD_START (R186). -/
  | coldStart (strap : Strap) (supplyFail batteryLow : Bool) (order : List Block)
  /-- WARM_RESTART (R187). -/
  | warmRestart (supplyFail batteryLow : Bool) (order : List Block)
  /-- SUPPLY_FAIL_ACTIVE (R193). -/
  | supplyFailActive (order : List Block)
  /-- SUPPLY_FAIL_INACTIVE (R195). -/
  | supplyFailInactive (order : List Block)
  /-- BATTERY_LOW_ACTIVE (R194). -/
  | batteryLowActive (order : List Block)
  /-- BATTERY_LOW_INACTIVE (R194). -/
  | batteryLowInactive
  /-- CONSISTENCY_CHECKS (R190). -/
  | consistencyChecks (order : List Block)
  /-- ROLL_CALL_COMPLETION (R191). -/
  | rollCallCompletion (order : List Block)
  /-- ROLL_CALL_LIMIT_EXPIRY (R191). -/
  | rollCallLimitExpiry (order : List Block)
  /-- DISPATCH_RETRY_EXPIRY (R59). -/
  | dispatchRetryExpiry
  /-- SEAL_LIMIT_EXPIRY (R82). -/
  | sealLimitExpiry (door : Fin 24)
  /-- LEAF_TRAVEL_LIMIT_EXPIRY (R84). -/
  | leafTravelLimitExpiry (door : Fin 24)
  /-- UNSEAL_LIMIT_EXPIRY (R88). -/
  | unsealLimitExpiry (door : Fin 24)
  /-- OPEN_TIME_WAIT_EXPIRY (R84). -/
  | openTimeWaitExpiry (door : Fin 24)
  /-- GRACE_END (R112). -/
  | graceEnd (room : Fin 8)
  /-- MASK_END (R112). -/
  | maskEnd (room : Fin 8)
  /-- STALE_ALARM_EXPIRY (R112). -/
  | staleAlarmExpiry (room : Fin 8)
  /-- ACCRUAL_INTERVAL_EXPIRY (R115). -/
  | accrualIntervalExpiry
  /-- FROST_INTERVAL_EXPIRY (R125). -/
  | frostIntervalExpiry
  /-- DEFERRAL_EXPIRY (R130). -/
  | deferralExpiry (evap : Fin 12)
  /-- PUMPDOWN_DEADLINE_EXPIRY (R134). -/
  | pumpdownDeadlineExpiry (evap : Fin 12)
  /-- MAX_HEAT_EXPIRY (R135). -/
  | maxHeatExpiry (evap : Fin 12)
  /-- DRIP_DEADLINE_EXPIRY (R136). -/
  | dripDeadlineExpiry (evap : Fin 12)
  /-- REFREEZE_DEADLINE_EXPIRY (R137). -/
  | refreezeDeadlineExpiry (evap : Fin 12)
deriving DecidableEq, Repr

end Sys2Proof
end

