-- ==== Sys2Proof/Decode.lean ====
section
/-! DEFINITION. The command a table word spells. No row of spec/opcode_table.json gives bits ("n_rows_with_fixed": 0 of
98_reader.md), so no word spells a command. The byte layouts of frames and messages are in Machine/Operands.lean. -/

namespace Sys2Proof

/-- No row of the table gives bits. -/
def decodeTableWord (_nbits _w : Nat) : Option Instr := none

end Sys2Proof
end

