-- ==== Sys2Proof/Config.lean ====
section
/-! DEFINITION. The fixed sizes and limits of the part, and the free values the manual leaves open. -/

namespace Sys2Proof.Config

/-- The largest site clock value (R188). -/
def clockMax : Nat := 4294967295
/-- Answer queue places (R171, R173). -/
def answerPlaces : Nat := 16
/-- Urgent and normal request queue places (R172). -/
def urgentPlaces : Nat := 8
def normalPlaces : Nat := 24
/-- Pallet entries (R23). -/
def palletEntries : Nat := 2048
/-- Order entries (R46). -/
def orderEntries : Nat := 128
/-- Staging lane capacity (R4). -/
def laneCapacity : Nat := 6
/-- Use list places (R95). -/
def useListPlaces : Nat := 16
/-- Alarm table places (R145). -/
def alarmPlaces : Nat := 64
/-- Exposure saturates here (00_scope.md 5.1). -/
def exposureMax : Nat := 65535
/-- A full frost load (R121). -/
def frostFull : Nat := 1000
/-- The greatest value of a session count (R78). -/
def sessionCountMax : Nat := 2048
/-- DKC's limits in seconds (04, 4.3), the settle time (R83). -/
def sealLimit : Nat := 60
def leafLimit : Nat := 20
def unsealLimit : Nat := 60
def settleTime : Nat := 5
/-- The stale alarm time (R112), the accrual interval (R115) and the frost interval (R125), in seconds. -/
def staleTime : Nat := 120
def accrualInterval : Nat := 60
def frostInterval : Nat := 60
/-- One drip extension (R136). -/
def dripExtension : Nat := 120
/-- The roll call limit (R190), the times START_SITE and STOP_SITE are held back (R190, R192). -/
def rollCallLimit : Nat := 10
def siteHoldTime : Nat := 30
/-- The dispatch retry interval (R59). -/
def retryInterval : Nat := 1

/-- FREE VALUE (log entry 8). What a session count of 2048 becomes when one more pallet is counted: R78 gives the range 0 to
2048 and no value past it. The argument is `State.freeDraws`, so each draw is its own. -/
opaque sessionCountPast : Nat → Fin 2049

/-- FREE VALUE (log entry 9). The 32-bit total open seconds where the sum R89 forms does not fit R78's 32 bits. -/
opaque openSecondsPast : Nat → BitVec 32

/-- FREE VALUE (log entry 10). The four bytes that carry a time past the largest 32-bit value (R188 forms it, section 11
gives it 32 bits). -/
opaque timeBytesPast : Nat → BitVec 32

end Sys2Proof.Config
end

