-- ==== Sys2Proof/Machine/State.lean ====
section
/-! DEFINITION. The state of the part: every record of its ten blocks (00_scope.md 2.1), each held by its owner, and the queue of
commands. Plain data. What a rule says always equals something else that is held is computed, not held twice (log entry 21). -/

namespace Sys2Proof.Machine

/-! ## Names and identifiers -/

/-- A pallet handle: entry index and generation (R23, 11.4). The index field has 12 bits; 2047 is the last entry. -/
structure Handle where
  index : Fin 4096
  gen : Fin 16
deriving DecidableEq, Repr

/-- An order identifier: entry index and generation (R46, 11.4). The index field has 12 bits; 127 is the last entry. -/
structure OrderId where
  index : Fin 4096
  gen : Fin 16
deriving DecidableEq, Repr

/-- The five kinds of place (R6). -/
inductive Place where
  | atDoor (d : Fin 24)
  | lane (d : Fin 24)
  | slot (n : Fin 4096)
  | floor (r : Fin 8)
  | carried (o : OrderId)
deriving DecidableEq, Repr

/-- A destination as a request names it: a place, or any free slot of a room (R7, R47). -/
inductive Dest where
  | place (p : Place)
  | anySlot (r : Fin 8)
deriving DecidableEq, Repr

/-- A station of a plant lane (R158). -/
inductive StationId where
  | door (d : Fin 24)
  | hub (r : Fin 8)
  | evap (e : Fin 12)
  | term (t : Fin 16)
deriving DecidableEq, Repr

/-! ## PDR (R1 to R5) -/

/-- Room kind (R1). -/
inductive RoomKind where
  | unused | dock | freezer | blast
deriving DecidableEq, Repr

/-- Slot state with its reference (R3). -/
inductive SlotState where
  | free
  | reserved (o : OrderId)
  | occupied (h : Handle)
  | blocked
deriving DecidableEq, Repr

/-- A staging lane: members from head to tail, and the reservation count (R4). -/
structure StagingLane where
  members : List Handle := []
  reserved : Nat := 0
deriving DecidableEq, Repr

/-- The place directory. `slots` lists the slots that are not FREE, by rising number. `floors` and `doorSets` are sets, held in
ascending order (R5's note). -/
structure Pdr where
  kind : Vector RoomKind 8
  ending : Vector Nat 8
  slots : List (Nat × SlotState)
  lanes : Vector StagingLane 24
  floors : Vector (List Handle) 8
  doorSets : Vector (List Handle) 24
deriving DecidableEq, Repr

/-! ## CTB (R20 to R25) -/

/-- A product class record (R20); budget 0 is unconfigured. -/
structure ClassRec where
  limit : Temp := 0
  budget : Nat := 0
  excess : Nat := 0
  preferred : Fin 8 := 0
deriving DecidableEq, Repr

/-- The set of holds of a pallet (R33). -/
structure Holds where
  exposure : Bool := false
  quality : Bool := false
  placeUncertain : Bool := false
deriving DecidableEq, Repr

/-- A live pallet record (R25). -/
structure Pallet where
  tag : Tag
  cls : Fin 16
  place : Place
  holds : Holds
  exposure : Nat
  admittedAt : Time
  admittingDoor : Fin 24
  liveOrder : Option OrderId
deriving DecidableEq, Repr

/-- A pallet entry: its generation, and the live record or none for a free entry (R23). -/
structure PalletEntry where
  gen : Fin 16 := 0
  rec? : Option Pallet := none
deriving DecidableEq, Repr

/-- The custody table. `entries` lists the entries that differ from a free entry of generation 0, by rising index. -/
structure Ctb where
  classes : Vector ClassRec 16
  entries : List (Nat × PalletEntry)
deriving DecidableEq, Repr

/-! ## MDS (R46 to R54, R59) -/

/-- Priority (R47). -/
inductive Priority where
  | normal | urgent
deriving DecidableEq, Repr

/-- Order state (R47). -/
inductive OrderState where
  | queued | granted | carrying | finished
deriving DecidableEq, Repr

/-- Outcome with its reason, in the combinations R47 gives. -/
inductive Outcome where
  | done
  | withdrawnCancelled
  | withdrawnHeld
  | withdrawnTrailerGone
  | abandonedTerminal
  | abandonedCancelled
deriving DecidableEq, Repr

/-- A move order record (R47). `seqNo` is the model's: the order's number in creation order (R49, log entry 24). -/
structure Order where
  pallet : Handle
  origin : Place
  dest : Place
  priority : Priority
  state : OrderState
  terminal : Option (Fin 16)
  routeDoor : Option (Fin 24)
  createdAt : Time
  finishedAt : Option Time
  outcome : Option Outcome
  seqNo : Nat
deriving DecidableEq, Repr

/-- An order entry (R46). -/
structure OrderEntry where
  gen : Fin 16 := 0
  rec? : Option Order := none
deriving DecidableEq, Repr

/-- Terminal state (R54). -/
inductive TermState where
  | disabled | offline | idle | granted | carrying
deriving DecidableEq, Repr

/-- A terminal record (R54). -/
structure Terminal where
  enabled : Bool := false
  state : TermState := .disabled
  bound : Option OrderId := none
  handsFull : Bool := false
  dispatchHold : Bool := false
  idleSince : Time := 0
  revokeDue : Option OrderId := none
deriving DecidableEq, Repr

/-- The move dispatcher. `retryDue` is the next expiry of the dispatch retry interval while it runs (R59). -/
structure Mds where
  entries : List (Nat × OrderEntry)
  finished : List OrderId
  terminals : Vector Terminal 16
  retryDue : Option Time
  nextSeq : Nat
deriving DecidableEq, Repr

/-! ## DKC (R77, R78, R97) -/

/-- Door state (R77). -/
inductive DoorState where
  | vacant | arrived | sealing | sealed | opening | opened | closing | unsealing | fault | offline
deriving DecidableEq, Repr

/-- Fault code (R77). -/
inductive FaultCode where
  | leafTimeout | unsealTimeout | trailerLost | sealLost | uncommandedLeaf | stationFault | reconcile
deriving DecidableEq, Repr

/-- Leaf position (R77, R165). -/
inductive Leaf where
  | closed | moving | opened | unknown
deriving DecidableEq, Repr

/-- A door station report (R165). -/
structure DoorReport where
  leaf : Leaf := .unknown
  sealOk : Bool := false
  trailer : Bool := false
  stationFault : Byte := 0
deriving DecidableEq, Repr

/-- Last outcome; two of them carry a pallet count (R77). -/
inductive DoorOutcome where
  | none | sealOk | sealFailed | opened | closed
  | released (n : Nat)
  | leftOnTrailer (n : Nat)
  | faultCleared
deriving DecidableEq, Repr

/-- Session direction (R78). -/
inductive Direction where
  | inbound | outbound
deriving DecidableEq, Repr

/-- A trailer session (R78). `count` is the admitted or the loaded count. -/
structure Session where
  ref : BitVec 32
  direction : Direction
  expected : Nat
  count : Nat
  moved : Nat
  sealedAt : Option Time
  openSeconds : Nat
deriving DecidableEq, Repr

/-- A dock door record (R77). `openWaitDue` is the expiry of the open-time wait while it runs (R84). -/
structure Door where
  room : Fin 8 := 0
  openLimit : Nat := 900
  inService : Bool := false
  state : DoorState := .vacant
  fault : Option FaultCode := none
  remembered : Option DoorState := none
  last : DoorReport := {}
  outcome : DoorOutcome := .none
  stateSince : Time := 0
  openSince : Option Time := none
  closeCompleted : Time := 0
  useList : List OrderId := []
  session : Option Session := none
  openWaitDue : Option Time := none
deriving DecidableEq, Repr

/-- Room hold state (R97). -/
inductive HoldState where
  | none | waiting | forcedPending | held
deriving DecidableEq, Repr

/-- A room hold record (R97). The claim set is listed by rising evaporator number, each with its forced mark. -/
structure RoomHold where
  claims : List (Fin 12 × Bool) := []
  state : HoldState := .none
deriving DecidableEq, Repr

/-- The dock door controller. -/
structure Dkc where
  doors : Vector Door 24
  holds : Vector RoomHold 8
deriving DecidableEq, Repr

/-! ## TSU (R103, R108, R115) -/

/-- Probe status (R103). -/
inductive ProbeStatus where
  | ok | absent | outOfRange | flagged | silent
deriving DecidableEq, Repr

/-- A probe record (R103). -/
structure Probe where
  fitted : Bool := false
  coilSide : Bool := false
  reading : Temp := 0
  status : ProbeStatus := .absent
  counted : Bool := false
deriving DecidableEq, Repr

/-- Thermal state (R108). -/
inductive ThermalState where
  | unwatched | normal | warm | excursion | stale
deriving DecidableEq, Repr

/-- A room thermal record (R108), with the coil exclusion of the last derivation (R119) and the deadlines of R112. -/
structure RoomThermal where
  limit : Temp := 0
  grace : Nat := 600
  mask : Nat := 1200
  temp : Temp := 0
  known : Bool := false
  state : ThermalState := .unwatched
  warmSince : Option Time := none
  staleSince : Option Time := none
  staleRaised : Bool := false
  maskUntil : Time := 0
  coilExcluded : Bool := false
  graceEnd : Option Time := none
  maskEnd : Option Time := none
  staleDue : Option Time := none
deriving DecidableEq, Repr

/-- The thermal supervisor. `accrualDue` is the next expiry of the accrual interval while it runs (R115). -/
structure Tsu where
  probes : Vector Probe 32
  rooms : Vector RoomThermal 8
  lastAccrual : Time
  accrualDue : Option Time
deriving DecidableEq, Repr

/-! ## DFC (R121, R125, R128) -/

/-- The twelve settings of an evaporator (R121). -/
structure EvapConfig where
  configured : Bool := false
  room : Fin 8 := 0
  pumpdown : Nat := 120
  maxHeat : Nat := 1800
  termination : Temp := 100
  drip : Nat := 180
  refreeze : Nat := 300
  fanStart : Temp := -50
  deferral : Nat := 45
  baseRate : Nat := 0
  doorRate : Nat := 0
  portalRate : Nat := 0
deriving DecidableEq, Repr

/-- Evaporator phase (R121). -/
inductive Phase where
  | idle | demanded | allotted | pumpdown | heat | drip | refreeze | fault
deriving DecidableEq, Repr

/-- Controller phase (R121, R165). -/
inductive CtlPhase where
  | run | pumpdown | heat | drip | refreeze
deriving DecidableEq, Repr

/-- A controller report (R165). -/
structure CtlReport where
  phase : CtlPhase := .run
  coil : Temp := 0
  heaterOn : Bool := false
  extension : Bool := false
deriving DecidableEq, Repr

/-- An evaporator record (R121). `deferralDue` is the deadline of the deferral wait while it runs (R130). The two last fields are the
termination and fan-start temperatures in use, taken from the settings at entry to HEAT and to REFREEZE: a new setting takes effect at
the next entry to its phase (R122; log entry 55). -/
structure Evap where
  cfg : EvapConfig := {}
  phase : Phase := .idle
  frost : Nat := 0
  forced : Bool := false
  demandSince : Option Time := none
  phaseSince : Time := 0
  deadline : Option Time := none
  extensions : Nat := 0
  allowanceHeld : Bool := false
  holdConfirmed : Bool := false
  heatTerminated : Bool := false
  lost : Bool := false
  last : CtlReport := {}
  deferralDue : Option Time := none
  terminationInUse : Temp := 100
  fanStartInUse : Temp := -50
deriving DecidableEq, Repr

/-- The defrost coordinator. `frostDue` is the next expiry of the frost interval while it runs (R125). -/
structure Dfc where
  evaps : Vector Evap 12
  allowance : Nat
  frostDue : Option Time
deriving DecidableEq, Repr

/-! ## ALT (R145, R146) -/

/-- The fifteen alarm kinds (R146). -/
inductive AlarmKind where
  | doorOpenLong | doorFault | trailerLost | sealFailed | roomWarm | roomStale | probeFault | palletExposed
  | placeUncertain | defrostOverrun | defrostStuck | defrostDeferred | terminalLost | stationLost | supplyLoss
deriving DecidableEq, Repr

/-- Alarm subject (R146). STATION names a station of the door, probe or evaporator lane. -/
inductive Subject where
  | door (d : Fin 24)
  | room (r : Fin 8)
  | probe (p : Fin 32)
  | pallet (h : Handle)
  | evap (e : Fin 12)
  | terminal (t : Fin 16)
  | station (st : StationId)
  | site
deriving DecidableEq, Repr

/-- Alarm state (R145). -/
inductive AlarmState where
  | raised | acked | cleared
deriving DecidableEq, Repr

/-- The value of an alarm record (R145, 11.5). -/
inductive AlarmValue where
  | temp (t : Temp)
  | exposure (n : Nat)
  | faultCode (c : FaultCode)
  | probeStatus (st : ProbeStatus)
deriving DecidableEq, Repr

/-- An alarm record (R145). -/
structure AlarmRec where
  kind : AlarmKind
  subject : Subject
  state : AlarmState
  firstRaised : Time
  lastRaised : Time
  count : Nat
  value : Option AlarmValue
deriving DecidableEq, Repr

/-- The alarm table, from head to tail, and the unlisted count. -/
structure Alt where
  records : List AlarmRec
  unlisted : Nat
deriving DecidableEq, Repr

/-! ## LPL (R160 to R169) -/

/-- Door station commands (4.3, R166). -/
inductive DoorCmd where
  | inflate | deflate | leafUp | leafDown | stop
deriving DecidableEq, Repr

/-- The action code of a GRANT (R60). -/
inductive ActionCode where
  | unload | pickLane | pickSlot | pickFloor
deriving DecidableEq, Repr

/-- The reasons of a REFUSE (R61). -/
inductive RefuseReason where
  | pickMismatch | dropMismatch | doorShut | held | place | state | notEnabled | mode | notFound | busy | destFull | tableFull
deriving DecidableEq, Repr

/-- The kinds of terminal report (R165). -/
inductive TermReportKind where
  | picked | dropped | abandon | submit | ready
deriving DecidableEq, Repr

/-- Terminal commands (R61). -/
inductive TermCmd where
  | grant (o : OrderId) (tag : Tag) (origin dest : Place) (action : ActionCode)
  | revoke (o : OrderId)
  | divert (o : OrderId) (dest : Place)
  | accept (kind : TermReportKind) (newOrder : Option OrderId)
  | refuse (reason : RefuseReason)
deriving DecidableEq, Repr

/-- A command in a station's slot (R161, R166). -/
inductive StationCmd where
  | door (c : DoorCmd)
  | evap (c : CtlPhase)
  | term (c : TermCmd)
deriving DecidableEq, Repr

/-- Station link state (R163). -/
inductive LinkState where
  | heard | unconfirmed | lost
deriving DecidableEq, Repr

/-- LPL's record of one station. `slotSent` says that the slot's command is the one the poll in flight carried (R162). -/
structure Station where
  link : LinkState := .unconfirmed
  missed : Nat := 0
  seqNo : Byte := 0
  slot : Option StationCmd := none
  slotSent : Bool := false
deriving DecidableEq, Repr

/-- A lane's polling state (R167, R169). -/
inductive Polling where
  | stopped | polled | rollCall
deriving DecidableEq, Repr

/-- A lane: polling state, the round timer's next expiry on the part's own time base, rounds owed because a round was still
running at an expiry (R160), the poll position, the stations still to be polled after it in the round or the roll call, and
the poll message last sent on the lane. -/
structure LaneRec where
  polling : Polling := .stopped
  roundDue : Nat := 0
  owed : Nat := 0
  position : Option StationId := none
  todo : List StationId := []
  lastPoll : List Byte := []
deriving DecidableEq, Repr

/-- The lane poller; stations in the order doors, hubs, evaporators, terminals. -/
structure Lpl where
  lanes : Vector LaneRec 4
  stations : Vector Station 60
deriving DecidableEq, Repr

/-! ## LKP (R171 to R176) -/

/-- Result codes (9.3, 11.3). -/
inductive ResultCode where
  | ok | accepted | already | badArg | unknownRequest | mode | supply | queueFull | staleHandle | notFound | duplicateTag
  | tableFull | busy | occupied | locked | held | destFull | doorState | doorInUse | notEmpty | settling | defrostHold
  | inCarry | orderState | evapState | tooSoon
deriving DecidableEq, Repr

/-- A queued request frame (11.2); its urgency is the queue it stands in. -/
structure RequestFrame where
  tag : Byte
  code : Byte
  args : List Byte
deriving DecidableEq, Repr

/-- An answer frame (11.2). -/
structure AnswerFrame where
  tag : Byte
  code : Byte
  result : ResultCode
  results : List Byte
deriving DecidableEq, Repr

/-- The seven attention causes, in priority order (R176). -/
inductive Cause where
  | supply | alarm | door | defrost | move | room | link
deriving DecidableEq, Repr

/-- One flag for each cause (R176). -/
structure CauseFlags where
  supply : Bool := false
  alarm : Bool := false
  door : Bool := false
  defrost : Bool := false
  move : Bool := false
  room : Bool := false
  link : Bool := false
deriving DecidableEq, Repr

/-- The LINK reason set (R176). -/
structure LinkReasons where
  frame : Bool := false
  notReady : Bool := false
  linkReset : Bool := false
  warmRestart : Bool := false
  coldStart : Bool := false
deriving DecidableEq, Repr

/-- An exchange in progress (R171): READY at its beginning, the bytes of the frame being shifted out, and whether that frame is
the answer at the head of the answer queue. -/
structure Exchange where
  ready : Bool
  out : List Byte
  answer : Bool
deriving DecidableEq, Repr

/-- The link port. `shifted` holds the bytes that the part shifted out in the exchange that ended last (R171, log entry 43). -/
structure Lkp where
  urgent : List RequestFrame
  normal : List RequestFrame
  answers : List AnswerFrame
  pendingCauses : CauseFlags
  masks : CauseFlags
  doorSet : List (Fin 24)
  defrostSet : List (Fin 12)
  roomSet : List (Fin 8)
  reasons : LinkReasons
  discards : Nat
  exchange : Option Exchange
  shifted : List Byte
deriving DecidableEq, Repr

/-! ## MOC (R184, R188, R190) -/

/-- Operating modes (R184). -/
inductive Mode where
  | standby | checking | run | holdover | retain
deriving DecidableEq, Repr

/-- Self-check result (R184). -/
inductive SelfCheck where
  | none | inProgress | passed
  | configInvalid (check : Nat)
  | supply | rollCallTimeout | abandoned
deriving DecidableEq, Repr

/-- The mode record and the site clock. `checksDue` says that the consistency checks of this CHECKING are still to be made,
`rollCallDue` is the expiry of the roll call limit while it runs (R190). -/
structure Moc where
  mode : Mode
  modeSince : Time
  stoppedAt : Option Time
  remembered : Option Mode
  strap : Strap
  selfCheck : SelfCheck
  rollCounts : Vector Nat 4
  supplyFail : Bool
  batteryLow : Bool
  rollCallDue : Option Time
  checksDue : Bool
  clock : Time
deriving DecidableEq, Repr

/-! ## The whole part -/

/-- The state. `timeBase` is the part's own time base in seconds, which round timers run on (R160, log entry 20); `freeDraws`
counts the draws of a free value (log entry 8); `pending` is the queue of commands. -/
structure State where
  pdr : Pdr
  ctb : Ctb
  mds : Mds
  dkc : Dkc
  tsu : Tsu
  dfc : Dfc
  alt : Alt
  lpl : Lpl
  lkp : Lkp
  moc : Moc
  timeBase : Nat
  freeDraws : Nat
  pending : List Instr
deriving DecidableEq, Repr

/-- No command stops the part: refused requests are answered, bad frames discarded, bad answers counted as missed polls. -/
inductive Fault where
deriving DecidableEq, Repr

/-- The reasons for having no next state. -/
inductive Refusal where
  /-- A row of the table without a meaning yet, by its mnemonic; raised by Dispatch alone (safe). No row is left so. -/
  | notModelled (mnemonic : String)
deriving DecidableEq, Repr

/-! ## Reset -/

/-- Cold-start values of PDR (R19). -/
def Pdr.coldStart : Pdr :=
  { kind := Vector.replicate 8 .unused, ending := Vector.replicate 8 0, slots := [], lanes := Vector.replicate 24 {},
    floors := Vector.replicate 8 [], doorSets := Vector.replicate 24 [] }

/-- Cold-start values of CTB (R45). -/
def Ctb.coldStart : Ctb := { classes := Vector.replicate 16 {}, entries := [] }

/-- Cold-start values of MDS (R76). -/
def Mds.coldStart : Mds :=
  { entries := [], finished := [], terminals := Vector.replicate 16 {}, retryDue := none, nextSeq := 0 }

/-- Cold-start values of DKC (R102). -/
def Dkc.coldStart : Dkc := { doors := Vector.replicate 24 {}, holds := Vector.replicate 8 {} }

/-- Cold-start values of TSU (R120). -/
def Tsu.coldStart : Tsu :=
  { probes := Vector.replicate 32 {}, rooms := Vector.replicate 8 {}, lastAccrual := 0, accrualDue := none }

/-- Cold-start values of DFC (R144). -/
def Dfc.coldStart : Dfc := { evaps := Vector.replicate 12 {}, allowance := 2, frostDue := none }

/-- Cold-start values of ALT (R157). -/
def Alt.coldStart : Alt := { records := [], unlisted := 0 }

/-- Cold-start values of LPL (R170). -/
def Lpl.coldStart : Lpl := { lanes := Vector.replicate 4 {}, stations := Vector.replicate 60 {} }

/-- Cold-start values of LKP (R183): LINK alone is pending, with reason COLD_START. -/
def Lkp.coldStart : Lkp :=
  { urgent := [], normal := [], answers := [], pendingCauses := { link := true }, masks := {}, doorSet := [], defrostSet := [],
    roomSet := [], reasons := { coldStart := true }, discards := 0, exchange := none, shifted := [] }

/-- Cold-start values of MOC (R197), with the strap sampled as given and the supply lines not yet sampled. -/
def Moc.coldStart (strap : Strap) : Moc :=
  { mode := .standby, modeSince := 0, stoppedAt := none, remembered := none, strap := strap, selfCheck := .none,
    rollCounts := Vector.replicate 4 0, supplyFail := false, batteryLow := false, rollCallDue := none, checksDue := false,
    clock := 0 }

/-- Every block at its cold-start values (R186), with the given strap and queue. -/
def State.coldStart (strap : Strap) (queue : List Instr) : State :=
  { pdr := Pdr.coldStart, ctb := Ctb.coldStart, mds := Mds.coldStart, dkc := Dkc.coldStart, tsu := Tsu.coldStart,
    dfc := Dfc.coldStart, alt := Alt.coldStart, lpl := Lpl.coldStart, lkp := Lkp.coldStart, moc := Moc.coldStart strap,
    timeBase := 0, freeDraws := 0, pending := queue }

/-- The part right after a cold start with MOVE_SOURCE low and both supply lines inactive (DESIGN CHOICE, log entry 16). -/
def State.reset : State := State.coldStart .hostOnly []

end Sys2Proof.Machine
end

