-- ==== Sys2Proof/Machine/Ops.lean ====
section
/-! DEFINITION. The named operations over the records: numbered tables, sparse tables, ordered lists, the write of one block of
the state, and the accessors every other file goes through. -/

namespace Sys2Proof.Machine

/-! ## Tables -/

/-- Change entry `i` of a numbered table. -/
def upd {α : Type} {n : Nat} (v : Vector α n) (i : Fin n) (f : α → α) : Vector α n :=
  v.set i.1 (f (v.get i)) i.2

/-- The value a sparse table holds at key `k`; an unlisted key holds `d`. -/
def sget {α : Type} (d : α) : List (Nat × α) → Nat → α
  | [], _ => d
  | (j, v) :: rest, k => if j = k then v else sget d rest k

/-- Write a sparse table: keys stay rising and no entry equals the unlisted value `d`. -/
def sset {α : Type} [DecidableEq α] (d : α) (k : Nat) (v : α) : List (Nat × α) → List (Nat × α)
  | [] => if v = d then [] else [(k, v)]
  | (j, w) :: rest =>
    if k < j then (if v = d then (j, w) :: rest else (k, v) :: (j, w) :: rest)
    else if k = j then (if v = d then rest else (k, v) :: rest)
    else (j, w) :: sset d k v rest

/-- The canonical form of a sparse table above key bound `lo`. -/
def swfFrom {α : Type} [DecidableEq α] (d : α) : Nat → List (Nat × α) → Bool
  | _, [] => true
  | lo, (j, v) :: rest => decide (lo ≤ j) && decide (v ≠ d) && swfFrom d (j + 1) rest

/-- The canonical form: keys strictly rising, no entry equal to the unlisted value. -/
def swf {α : Type} [DecidableEq α] (d : α) (m : List (Nat × α)) : Bool := swfFrom d 0 m

/-- The first of `fuel` numbers from `start` upward that satisfies `p`. -/
def findUp (p : Nat → Bool) : Nat → Nat → Option Nat
  | 0, _ => none
  | fuel + 1, start => if p start then some start else findUp p fuel (start + 1)

/-- Insert before the first element that must not stand ahead of it. -/
def insertBy {α : Type} (before : α → α → Bool) (x : α) : List α → List α
  | [] => [x]
  | y :: rest => if before x y then x :: y :: rest else y :: insertBy before x rest

/-- Stable insertion sort: `before x y` says that `x` goes strictly ahead of `y`. -/
def sortBy {α : Type} (before : α → α → Bool) : List α → List α
  | [] => []
  | x :: rest => insertBy (fun a b => !before b a) x (sortBy before rest)

/-- Add to a set of numbers kept in ascending order, each at most once. -/
def insertFin {n : Nat} (i : Fin n) : List (Fin n) → List (Fin n)
  | [] => [i]
  | j :: rest => if i < j then i :: j :: rest else if i = j then j :: rest else j :: insertFin i rest

/-- Ascending entry index, then generation. -/
def Handle.before (a b : Handle) : Bool := a.index < b.index || (a.index = b.index && a.gen < b.gen)

/-- Add to a set of handles kept in ascending entry index, each at most once (R5). -/
def insertHandle (h : Handle) : List Handle → List Handle
  | [] => [h]
  | j :: rest => if h.before j then h :: j :: rest else if h = j then j :: rest else j :: insertHandle h rest

/-! ## The write of one block -/

def State.withPdr (s : State) (b : Pdr) : State := { s with pdr := b }
def State.withCtb (s : State) (b : Ctb) : State := { s with ctb := b }
def State.withMds (s : State) (b : Mds) : State := { s with mds := b }
def State.withDkc (s : State) (b : Dkc) : State := { s with dkc := b }
def State.withTsu (s : State) (b : Tsu) : State := { s with tsu := b }
def State.withDfc (s : State) (b : Dfc) : State := { s with dfc := b }
def State.withAlt (s : State) (b : Alt) : State := { s with alt := b }
def State.withLpl (s : State) (b : Lpl) : State := { s with lpl := b }
def State.withLkp (s : State) (b : Lkp) : State := { s with lkp := b }
def State.withMoc (s : State) (b : Moc) : State := { s with moc := b }
def State.withTimeBase (s : State) (n : Nat) : State := { s with timeBase := n }
def State.withFreeDraws (s : State) (n : Nat) : State := { s with freeDraws := n }
def State.withPending (s : State) (q : List Instr) : State := { s with pending := q }

/-! ## Accessors -/

/-- Now: the site clock (R188). -/
def State.now (s : State) : Time := s.moc.clock

/-- The operating mode (R184). -/
def State.mode (s : State) : Mode := s.moc.mode

def State.kind (s : State) (r : Fin 8) : RoomKind := s.pdr.kind.get r
def State.slot (s : State) (n : Nat) : SlotState := sget .free s.pdr.slots n
def State.setSlot (s : State) (n : Nat) (v : SlotState) : State :=
  s.withPdr { s.pdr with slots := sset .free n v s.pdr.slots }
def State.stagingLane (s : State) (d : Fin 24) : StagingLane := s.pdr.lanes.get d
def State.updStagingLane (s : State) (d : Fin 24) (f : StagingLane → StagingLane) : State :=
  s.withPdr { s.pdr with lanes := upd s.pdr.lanes d f }
def State.floor (s : State) (r : Fin 8) : List Handle := s.pdr.floors.get r
def State.updFloor (s : State) (r : Fin 8) (f : List Handle → List Handle) : State :=
  s.withPdr { s.pdr with floors := upd s.pdr.floors r f }
def State.doorPallets (s : State) (d : Fin 24) : List Handle := s.pdr.doorSets.get d
def State.updDoorPallets (s : State) (d : Fin 24) (f : List Handle → List Handle) : State :=
  s.withPdr { s.pdr with doorSets := upd s.pdr.doorSets d f }

def State.cls (s : State) (c : Fin 16) : ClassRec := s.ctb.classes.get c
def State.entry (s : State) (i : Nat) : PalletEntry := sget {} s.ctb.entries i
def State.setEntry (s : State) (i : Nat) (e : PalletEntry) : State :=
  s.withCtb { s.ctb with entries := sset {} i e s.ctb.entries }

def State.orderEntry (s : State) (i : Nat) : OrderEntry := sget {} s.mds.entries i
def State.setOrderEntry (s : State) (i : Nat) (e : OrderEntry) : State :=
  s.withMds { s.mds with entries := sset {} i e s.mds.entries }
def State.terminal (s : State) (t : Fin 16) : Terminal := s.mds.terminals.get t
def State.updTerminal (s : State) (t : Fin 16) (f : Terminal → Terminal) : State :=
  s.withMds { s.mds with terminals := upd s.mds.terminals t f }

def State.door (s : State) (d : Fin 24) : Door := s.dkc.doors.get d
def State.updDoor (s : State) (d : Fin 24) (f : Door → Door) : State :=
  s.withDkc { s.dkc with doors := upd s.dkc.doors d f }
def State.hold (s : State) (r : Fin 8) : RoomHold := s.dkc.holds.get r
def State.updHold (s : State) (r : Fin 8) (f : RoomHold → RoomHold) : State :=
  s.withDkc { s.dkc with holds := upd s.dkc.holds r f }

def State.probe (s : State) (p : Fin 32) : Probe := s.tsu.probes.get p
def State.updProbe (s : State) (p : Fin 32) (f : Probe → Probe) : State :=
  s.withTsu { s.tsu with probes := upd s.tsu.probes p f }
def State.thermal (s : State) (r : Fin 8) : RoomThermal := s.tsu.rooms.get r
def State.updThermal (s : State) (r : Fin 8) (f : RoomThermal → RoomThermal) : State :=
  s.withTsu { s.tsu with rooms := upd s.tsu.rooms r f }

def State.evap (s : State) (e : Fin 12) : Evap := s.dfc.evaps.get e
def State.updEvap (s : State) (e : Fin 12) (f : Evap → Evap) : State :=
  s.withDfc { s.dfc with evaps := upd s.dfc.evaps e f }

/-- Where a lane stands in LPL's table. -/
def laneSlot : Lane → Fin 4
  | .door => 0 | .probe => 1 | .evap => 2 | .term => 3

/-- Where a station stands in LPL's table: doors, hubs, evaporators, terminals. -/
def StationId.slotOf : StationId → Fin 60
  | .door d => ⟨d.1, by omega⟩
  | .hub r => ⟨24 + r.1, by omega⟩
  | .evap e => ⟨32 + e.1, by omega⟩
  | .term t => ⟨44 + t.1, by omega⟩

/-- The lane of a station (R158). -/
def StationId.lane : StationId → Lane
  | .door _ => .door | .hub _ => .probe | .evap _ => .evap | .term _ => .term

/-- The station's address on its lane (R158). -/
def StationId.address : StationId → Nat
  | .door d => d.1 | .hub r => r.1 | .evap e => e.1 | .term t => t.1

/-- The stations of a lane in ascending address (R158). -/
def laneStations : Lane → List StationId
  | .door => (List.finRange 24).map .door
  | .probe => (List.finRange 8).map .hub
  | .evap => (List.finRange 12).map .evap
  | .term => (List.finRange 16).map .term

def State.laneRec (s : State) (l : Lane) : LaneRec := s.lpl.lanes.get (laneSlot l)
def State.updLane (s : State) (l : Lane) (f : LaneRec → LaneRec) : State :=
  s.withLpl { s.lpl with lanes := upd s.lpl.lanes (laneSlot l) f }
def State.station (s : State) (st : StationId) : Station := s.lpl.stations.get st.slotOf
def State.updStation (s : State) (st : StationId) (f : Station → Station) : State :=
  s.withLpl { s.lpl with stations := upd s.lpl.stations st.slotOf f }

/-! ## Loops -/

/-- Take the elements of a list one by one, each against the state the last one left. -/
def State.forEach {α : Type} (s : State) (xs : List α) (f : α → State → State) : State :=
  xs.foldl (fun t x => f x t) s

end Sys2Proof.Machine
end

