-- ==== Sys2Proof/Machine/Clock.lean ====
section
/-! DEFINITION. The passage of one second (R188). -/

namespace Sys2Proof.Machine

/-- R188: the site clock after one more second; at the largest 32-bit value it stays. -/
def Moc.tick (m : Moc) : Moc := { m with clock := if m.clock < Config.clockMax then m.clock + 1 else m.clock }

/-- One second passes: the site clock and the part's own time base (R160, R188). This is what a step does when no command waits
(log entry 1). -/
def State.tick (s : State) : State := (s.withMoc s.moc.tick).withTimeBase (s.timeBase + 1)

end Sys2Proof.Machine
end

