-- ==== Sys2Proof/Machine/Flags.lean ====
section
/-! DEFINITION. The attention causes, their contents, and the READY and ATTN outputs (R173, R176 to R178). -/

namespace Sys2Proof.Machine

def CauseFlags.get (f : CauseFlags) : Cause → Bool
  | .supply => f.supply | .alarm => f.alarm | .door => f.door | .defrost => f.defrost
  | .move => f.move | .room => f.room | .link => f.link

def CauseFlags.set (f : CauseFlags) (c : Cause) (b : Bool) : CauseFlags :=
  match c with
  | .supply => { f with supply := b }
  | .alarm => { f with alarm := b }
  | .door => { f with door := b }
  | .defrost => { f with defrost := b }
  | .move => { f with move := b }
  | .room => { f with room := b }
  | .link => { f with link := b }

/-- The causes in priority order (R176). -/
def Cause.all : List Cause := [.supply, .alarm, .door, .defrost, .move, .room, .link]

/-- A cause becomes pending (R176). -/
def setCause (c : Cause) (s : State) : State :=
  s.withLkp { s.lkp with pendingCauses := s.lkp.pendingCauses.set c true }

/-- DOOR with a door number (R101, R176). -/
def setDoorCause (d : Fin 24) (s : State) : State :=
  s.withLkp { s.lkp with pendingCauses := s.lkp.pendingCauses.set .door true, doorSet := insertFin d s.lkp.doorSet }

/-- DEFROST with an evaporator number (R131, R176). -/
def setDefrostCause (e : Fin 12) (s : State) : State :=
  s.withLkp { s.lkp with
    pendingCauses := s.lkp.pendingCauses.set .defrost true, defrostSet := insertFin e s.lkp.defrostSet }

/-- ROOM with a room number (R111, R176). -/
def setRoomCause (r : Fin 8) (s : State) : State :=
  s.withLkp { s.lkp with pendingCauses := s.lkp.pendingCauses.set .room true, roomSet := insertFin r s.lkp.roomSet }

/-- LINK for a discard: FRAME or NOT_READY joins the reasons and the discard count rises to at most 255 (R172). -/
def discardFrame (notReady : Bool) (s : State) : State :=
  s.withLkp { s.lkp with
    pendingCauses := s.lkp.pendingCauses.set .link true
    reasons := if notReady then { s.lkp.reasons with notReady := true } else { s.lkp.reasons with frame := true }
    discards := min 255 (s.lkp.discards + 1) }

/-- Clear one cause with its contents; MOVE follows the finished list instead (R176, R177). -/
def clearCause (c : Cause) (s : State) : State :=
  match c with
  | .move => s
  | .door => s.withLkp { s.lkp with pendingCauses := s.lkp.pendingCauses.set .door false, doorSet := [] }
  | .defrost => s.withLkp { s.lkp with pendingCauses := s.lkp.pendingCauses.set .defrost false, defrostSet := [] }
  | .room => s.withLkp { s.lkp with pendingCauses := s.lkp.pendingCauses.set .room false, roomSet := [] }
  | .link => s.withLkp { s.lkp with
      pendingCauses := s.lkp.pendingCauses.set .link false, reasons := {}, discards := 0 }
  | c => s.withLkp { s.lkp with pendingCauses := s.lkp.pendingCauses.set c false }

/-- The MOVE cause is pending exactly while the finished list is not empty (R177). -/
def syncMove (s : State) : State :=
  s.withLkp { s.lkp with pendingCauses := s.lkp.pendingCauses.set .move (!s.mds.finished.isEmpty) }

/-- READY: fewer than 16 answers wait (R173). -/
def State.ready (s : State) : Bool := s.lkp.answers.length < Config.answerPlaces

/-- ATTN: some cause is pending and unmasked (R178). -/
def State.attn (s : State) : Bool :=
  Cause.all.any fun c => s.lkp.pendingCauses.get c && !s.lkp.masks.get c

/-- The pending unmasked cause of highest priority (R179). -/
def State.topCause (s : State) : Option Cause :=
  Cause.all.find? fun c => s.lkp.pendingCauses.get c && !s.lkp.masks.get c

end Sys2Proof.Machine
end

