-- ==== Sys2Proof/Machine/Alarms.lean ====
section
/-! DEFINITION. ALT: raise and clear claims (R148 to R150, R152) and acknowledgement (R153) on the alarm table. -/

namespace Sys2Proof.Machine

/-- The record is for this pair (R145). -/
def AlarmRec.isFor (r : AlarmRec) (k : AlarmKind) (sub : Subject) : Bool := r.kind = k && r.subject = sub

/-- R148: a raise merged into a record. -/
def mergeRaise (now : Time) (v : Option AlarmValue) (r : AlarmRec) : AlarmRec :=
  { r with
    count := min 255 (r.count + 1)
    lastRaised := now
    value := if v.isSome then v else r.value
    state := .raised }

/-- R149: a fresh record. -/
def newAlarm (now : Time) (k : AlarmKind) (sub : Subject) (v : Option AlarmValue) : AlarmRec :=
  { kind := k, subject := sub, state := .raised, firstRaised := now, lastRaised := now, count := 1, value := v }

/-- R148, R149: a raise claim on the table. -/
def Alt.raise (now : Time) (k : AlarmKind) (sub : Subject) (v : Option AlarmValue) (a : Alt) : Alt :=
  if a.records.any (·.isFor k sub) then
    { a with records := a.records.map fun r => if r.isFor k sub then mergeRaise now v r else r }
  else if a.records.length < Config.alarmPlaces then
    { a with records := a.records ++ [newAlarm now k sub v] }
  else if a.records.any (·.state = .cleared) then
    { a with records := a.records.eraseP (·.state = .cleared) ++ [newAlarm now k sub v] }
  else { a with unlisted := min 255 (a.unlisted + 1) }

/-- R150: what a clear claim leaves of the record for its pair. -/
def clearRecord (r : AlarmRec) : Option AlarmRec :=
  match r.state with
  | .raised => some { r with state := .cleared }
  | .acked => none
  | .cleared => some r

/-- R150: a clear claim on the table. -/
def Alt.clear (k : AlarmKind) (sub : Subject) (a : Alt) : Alt :=
  { a with records := a.records.filterMap fun r => if r.isFor k sub then clearRecord r else some r }

/-- R153: what an acknowledgement leaves of a record. -/
def ackRecord (r : AlarmRec) : Option AlarmRec :=
  match r.state with
  | .raised => some { r with state := .acked }
  | .acked => some r
  | .cleared => none

/-- A raise claim: the table, and the ALARM cause in the same step (R152). -/
def raiseAlarm (k : AlarmKind) (sub : Subject) (v : Option AlarmValue) (s : State) : State :=
  setCause .alarm (s.withAlt (s.alt.raise s.now k sub v))

/-- A clear claim: no cause is set (R150). -/
def clearAlarm (k : AlarmKind) (sub : Subject) (s : State) : State :=
  s.withAlt (s.alt.clear k sub)

/-- The position of the record for a pair (R145, R155). -/
def Alt.position (k : AlarmKind) (sub : Subject) (a : Alt) : Option Nat :=
  a.records.findIdx? (·.isFor k sub)

end Sys2Proof.Machine
end

