-- ==== Sys2Proof/Machine/Places.lean ====
section
/-! DEFINITION. PDR: the slot map (R2), place validity (R6), the five claims (R7 to R11) and the room counts (R12). -/

namespace Sys2Proof.Machine

/-- The room holding slot `n`: the lowest-numbered room whose ending is greater (R2). -/
def roomOfSlotIn (ending : Vector Nat 8) (n : Nat) : Option (Fin 8) :=
  (List.finRange 8).find? fun r => n < ending.get r

def State.roomOfSlot (s : State) (n : Nat) : Option (Fin 8) := roomOfSlotIn s.pdr.ending n

/-- The first slot of a room's run: the ending of the room before it, or 0 for room 0 (R2). -/
def State.firstSlot (s : State) (r : Fin 8) : Nat :=
  if r.1 = 0 then 0 else s.pdr.ending.get ⟨r.1 - 1, by omega⟩

/-- The slot count of a room (R2). -/
def State.slotCount (s : State) (r : Fin 8) : Nat := s.pdr.ending.get r - s.firstSlot r

/-- Lane `d` is usable while its door is in service and the door's room is of kind DOCK (R4). -/
def State.laneUsable (s : State) (d : Fin 24) : Bool :=
  (s.door d).inService && s.kind (s.door d).room = .dock

/-- R6: a place code is valid as a place, or as the destination of a move. -/
def State.placeValid (s : State) : Place → Bool
  | .atDoor d => (s.door d).inService
  | .lane d => s.laneUsable d
  | .slot n =>
    match s.roomOfSlot n.1 with
    | some r => s.kind r ≠ .unused
    | none => false
  | .floor r => s.kind r ≠ .unused
  | .carried _ => false

/-- The room a place lies in, if any (R6: "placed in room r"; R64). -/
def State.roomOfPlace (s : State) : Place → Option (Fin 8)
  | .atDoor _ => none
  | .lane d => some (s.door d).room
  | .slot n => s.roomOfSlot n.1
  | .floor r => some r
  | .carried _ => none

/-- The lowest-numbered FREE slot of a room (R12). -/
def State.lowestFree (s : State) (r : Fin 8) : Option (Fin 4096) :=
  (findUp (fun n => s.slot n = .free) (s.slotCount r) (s.firstSlot r)).bind fun n =>
    if h : n < 4096 then some ⟨n, h⟩ else none

/-- How many slots of a room are in a state that `p` accepts (R12); `p` must not accept FREE, which is not listed. -/
def State.countSlots (s : State) (r : Fin 8) (p : SlotState → Bool) : Nat :=
  (s.pdr.slots.filter fun (n, v) => s.firstSlot r ≤ n && n < s.pdr.ending.get r && p v).length

def SlotState.isReserved : SlotState → Bool
  | .reserved _ => true
  | _ => false

def SlotState.isOccupied : SlotState → Bool
  | .occupied _ => true
  | _ => false

def SlotState.isBlocked : SlotState → Bool
  | .blocked => true
  | _ => false

/-- Members plus reservations (R4). -/
def StagingLane.load (l : StagingLane) : Nat := l.members.length + l.reserved

/-- R7: the reserve claim, which returns the stored destination. -/
def reserveClaim (o : OrderId) (dest : Dest) (s : State) : Except ResultCode (Place × State) :=
  match dest with
  | .anySlot r =>
    if s.kind r = .unused then .error .badArg
    else match s.lowestFree r with
      | some n => .ok (.slot n, s.setSlot n.1 (.reserved o))
      | none => .error .destFull
  | .place p =>
    if !s.placeValid p then .error .badArg
    else match p with
      | .slot n => if s.slot n.1 = .free then .ok (p, s.setSlot n.1 (.reserved o)) else .error .destFull
      | .lane d =>
        if (s.stagingLane d).load < Config.laneCapacity then
          .ok (p, s.updStagingLane d fun l => { l with reserved := l.reserved + 1 })
        else .error .destFull
      | .atDoor _ => .ok (p, s)
      | .floor _ => .ok (p, s)
      | .carried _ => .error .badArg

/-- R8: the commit claim; none is the refusal DROP_MISMATCH. -/
def commitClaim (o : OrderId) (h : Handle) (p : Place) (s : State) : Option State :=
  match p with
  | .slot n => if s.slot n.1 = .reserved o then some (s.setSlot n.1 (.occupied h)) else none
  | .lane d =>
    if 1 ≤ (s.stagingLane d).reserved then
      some (s.updStagingLane d fun l => { l with reserved := l.reserved - 1, members := l.members ++ [h] })
    else none
  | .atDoor d => some (s.updDoorPallets d (insertHandle h))
  | .floor r => some (s.updFloor r (insertHandle h))
  | .carried _ => none

/-- R9: the release claim. A refused release leaves the place as it was, and MDS goes on regardless. -/
def releaseClaim (o : OrderId) (p : Place) (s : State) : State :=
  match p with
  | .slot n => if s.slot n.1 = .reserved o then s.setSlot n.1 .free else s
  | .lane d =>
    if 1 ≤ (s.stagingLane d).reserved then s.updStagingLane d fun l => { l with reserved := l.reserved - 1 } else s
  | .atDoor _ => s
  | .floor _ => s
  | .carried _ => s

/-- R10: the vacate claim; none is the refusal PICK_MISMATCH. -/
def vacateClaim (h : Handle) (p : Place) (s : State) : Option State :=
  match p with
  | .slot n => if s.slot n.1 = .occupied h then some (s.setSlot n.1 .free) else none
  | .lane d =>
    if (s.stagingLane d).members.contains h then
      some (s.updStagingLane d fun l => { l with members := l.members.erase h })
    else none
  | .atDoor d => if (s.doorPallets d).contains h then some (s.updDoorPallets d (·.erase h)) else none
  | .floor r => if (s.floor r).contains h then some (s.updFloor r (·.erase h)) else none
  | .carried _ => none

/-- R11: the occupy claim. -/
def occupyClaim (h : Handle) (p : Place) (s : State) : Except ResultCode State :=
  if !s.placeValid p then .error .badArg
  else match p with
    | .slot n => if s.slot n.1 = .free then .ok (s.setSlot n.1 (.occupied h)) else .error .destFull
    | .lane d =>
      if (s.stagingLane d).load < Config.laneCapacity then
        .ok (s.updStagingLane d fun l => { l with members := l.members ++ [h] })
      else .error .destFull
    | .atDoor d => .ok (s.updDoorPallets d (insertHandle h))
    | .floor r => .ok (s.updFloor r (insertHandle h))
    | .carried _ => .error .badArg

end Sys2Proof.Machine
end

