-- ==== Sys2Proof/Machine/Custody.lean ====
section
/-! DEFINITION. CTB: the pallet entries and handles (R23, R24), the tag index (R27), MDS's claims (R26), admission (R30) and
retirement (R38). The budget rule and the charge claims, which reach MDS, are in Machine/Charges.lean. -/

namespace Sys2Proof.Machine

/-- R24: the live record a handle names; none for a stale handle. -/
def State.pallet? (s : State) (h : Handle) : Option Pallet :=
  let e := s.entry h.index.1
  if h.index.1 < Config.palletEntries ∧ e.gen = h.gen then e.rec? else none

/-- Change the record of a live entry. -/
def State.updPallet (s : State) (h : Handle) (f : Pallet → Pallet) : State :=
  let e := s.entry h.index.1
  s.setEntry h.index.1 { e with rec? := e.rec?.map f }

/-- The live records with their handles, in ascending entry index. -/
def State.livePallets (s : State) : List (Handle × Pallet) :=
  s.ctb.entries.filterMap fun (i, e) => e.rec?.map fun p => ({ index := Fin.ofNat 4096 i, gen := e.gen }, p)

/-- The handles of the live records, in ascending entry index. -/
def State.liveHandles (s : State) : List Handle := s.livePallets.map (·.1)

/-- R27: the tag index, ordered by ascending tag. -/
def State.tagIndex (s : State) : List (Tag × Handle) :=
  sortBy (fun a b => a.1 < b.1) (s.livePallets.map fun (h, p) => (p.tag, h))

/-- Exact lookup in the tag index (R27, R28). -/
def State.findTag (s : State) (t : Tag) : Option Handle :=
  (s.tagIndex.find? fun x => x.1 = t).map (·.2)

/-- The lowest-numbered free entry (R23). -/
def State.freeEntry (s : State) : Option Nat :=
  findUp (fun i => (s.entry i).rec? = none) Config.palletEntries 0

/-- R26: the bind claim; none is the refusal BUSY. -/
def bindClaim (h : Handle) (o : OrderId) (s : State) : Option State :=
  match s.pallet? h with
  | some p => if p.liveOrder = none then some (s.updPallet h fun p => { p with liveOrder := some o }) else none
  | none => none

/-- R26: a claim that is taken only for the order bound to the pallet; another order is refused BUSY and nothing changes. -/
def boundClaim (h : Handle) (o : OrderId) (f : Pallet → Pallet) (s : State) : State :=
  match s.pallet? h with
  | some p => if p.liveOrder = some o then s.updPallet h f else s
  | none => s

/-- R26: pick. -/
def pickClaim (h : Handle) (o : OrderId) : State → State :=
  boundClaim h o fun p => { p with place := .carried o }

/-- R26: drop. -/
def dropClaim (h : Handle) (o : OrderId) (dest : Place) : State → State :=
  boundClaim h o fun p => { p with place := dest, liveOrder := none }

/-- R26: unbind. -/
def unbindClaim (h : Handle) (o : OrderId) : State → State :=
  boundClaim h o fun p => { p with liveOrder := none }

/-- R26, R33: abandon sets PLACE_UNCERTAIN and raises its alarm. The hold notice it sends finds the pallet without a live order
and so has no effect (R69). -/
def abandonClaim (h : Handle) (o : OrderId) (r : Fin 8) (s : State) : State :=
  match s.pallet? h with
  | some p =>
    if p.liveOrder = some o then
      raiseAlarm .placeUncertain (.pallet h) none
        (s.updPallet h fun p =>
          { p with place := .floor r, liveOrder := none, holds := { p.holds with placeUncertain := true } })
    else s
  | none => s

/-- R30: the new record in entry `i`, its handle, and PDR's occupy of the door. -/
def admitPallet (i : Nat) (tag : Tag) (c : Fin 16) (d : Fin 24) (s : State) : Handle × State :=
  let e := s.entry i
  let h : Handle := { index := Fin.ofNat 4096 i, gen := e.gen }
  let p : Pallet :=
    { tag := tag, cls := c, place := .atDoor d, holds := {}, exposure := 0, admittedAt := s.now, admittingDoor := d,
      liveOrder := none }
  (h, (s.setEntry i { e with rec? := some p }).updDoorPallets d (insertHandle h))

/-- R38: retire a record: vacate its place, drop its tag with the record, clear its two alarms, free the entry and advance
the generation. A stale handle retires nothing. -/
def retirePallet (h : Handle) (s : State) : State :=
  match s.pallet? h with
  | none => s
  | some p =>
    let vacated := (vacateClaim h p.place s).getD s
    let cleared := clearAlarm .placeUncertain (.pallet h) (clearAlarm .palletExposed (.pallet h) vacated)
    cleared.setEntry h.index.1 { gen := h.gen + 1, rec? := none }

/-- R39, R40: retire every pallet of a door's set in ascending entry index, with their number. -/
def retireDoorSet (d : Fin 24) (s : State) : Nat × State :=
  ((s.doorPallets d).length, s.forEach (s.doorPallets d) retirePallet)

end Sys2Proof.Machine
end

