-- ==== Sys2Proof/Machine/Placement.lean ====
section
/-! DEFINITION. LPL's side of a command placement (R161) and of a change of a station's configured condition (R168). -/

namespace Sys2Proof.Machine

/-- R161: a command is put into a station's slot, replacing any command not yet sent. -/
def placeCmd (st : StationId) (c : StationCmd) (s : State) : State :=
  s.updStation st fun x => { x with slot := some c, slotSent := false }

def placeDoor (d : Fin 24) (c : DoorCmd) : State → State := placeCmd (.door d) (.door c)
def placeEvap (e : Fin 12) (c : CtlPhase) : State → State := placeCmd (.evap e) (.evap c)
def placeTerm (t : Fin 16) (c : TermCmd) : State → State := placeCmd (.term t) (.term c)

/-- R163: the loss alarm of a station. -/
def lossAlarm : StationId → AlarmKind × Subject
  | .term t => (.terminalLost, .terminal t)
  | st => (.stationLost, .station st)

/-- R158: a station is configured. -/
def State.configured (s : State) : StationId → Bool
  | .door d => (s.door d).inService
  | .hub r => (List.finRange 32).any fun p => p.1 / 4 = r.1 && (s.probe p).fitted
  | .evap e => (s.evap e).cfg.configured
  | .term t => (s.terminal t).enabled

/-- R168: what LPL does when a configuration set has changed whether `st` is configured. -/
def configuredChanged (st : StationId) (before after : Bool) (s : State) : State :=
  if before = after then s
  else
    let t := s.updStation st fun x => { x with link := .unconfirmed, missed := 0, slot := none, slotSent := false }
    if before then clearAlarm (lossAlarm st).1 (lossAlarm st).2 t else t

end Sys2Proof.Machine
end

