-- ==== Sys2Proof/Machine/Defrost.lean ====
section
/-! DEFINITION. DFC, with DKC's room hold, which it claims: phases (R131), the HELD notice (R133), the hold claims (R97 to R99),
demand and deferral (R127, R130), the allowance pass (R129), frost (R125, R126), reports and loss (R124, R138, R139) and the
mode changes (R142, R144). TSU's defrost-start notice (R113) is here too. -/

namespace Sys2Proof.Machine

/-! ## The room hold's doors (R97) -/

/-- R97: a door in a state that counts as not closed. -/
def Door.leafMayBeOpen (d : Door) : Bool :=
  let moving (st : DoorState) : Bool := st = .opening || st = .opened || st = .closing
  moving d.state
    || (d.state = .offline && (d.remembered.any moving))
    || ((d.state = .fault || (d.state = .offline && d.remembered = some .fault)) && d.last.leaf ≠ .closed)

/-- R97: the door counts as not closed for its room. -/
def Door.notClosed (d : Door) : Bool := d.inService && d.leafMayBeOpen

/-- R97: every door of the room is closed. -/
def State.roomClosed (s : State) (r : Fin 8) : Bool :=
  (List.finRange 24).all fun d => !(decide ((s.door d).room = r) && (s.door d).notClosed)

/-- R99: the number of in-service doors of the room in state OPEN. -/
def State.openDoors (s : State) (r : Fin 8) : Nat :=
  ((List.finRange 24).filter fun d => (s.door d).inService && (s.door d).room = r && (s.door d).state = .opened).length

/-! ## Evaporators -/

/-- R121: an evaporator bound to a room. -/
def Evap.boundTo (e : Evap) (r : Fin 8) : Bool := e.cfg.configured && e.cfg.room = r

/-- DFC's answer to TSU: some evaporator bound to the room is in HEAT or DRIP (R143). -/
def State.coilsHot (s : State) (r : Fin 8) : Bool :=
  (List.finRange 12).any fun e => (s.evap e).boundTo r && ((s.evap e).phase = .heat || (s.evap e).phase = .drip)

/-- The number of evaporators holding heater allowance (R128). -/
def State.allowanceUsed (s : State) : Nat :=
  ((List.finRange 12).filter fun e => (s.evap e).allowanceHeld).length

/-- R131: a phase change: phase-since, the new deadline, and the DEFROST changed set. A change to a phase other than DEMANDED and
ALLOTTED cancels the deferral wait (R130). -/
def enterPhase (e : Fin 12) (p : Phase) (deadline : Option Time) (s : State) : State :=
  setDefrostCause e (s.updEvap e fun x =>
    { x with
      phase := p, phaseSince := s.now, deadline := deadline
      deferralDue := if p = .demanded || p = .allotted then x.deferralDue else none })

/-- R113: the defrost-start notice. -/
def defrostStartNotice (r : Fin 8) (s : State) : State :=
  s.updThermal r fun t => { t with maskUntil := s.now + t.mask }

/-- R133: entry to PUMPDOWN. -/
def enterPumpdown (e : Fin 12) (s : State) : State :=
  let x := s.evap e
  defrostStartNotice x.cfg.room
    (clearAlarm .defrostDeferred (.evap e)
      (placeEvap e .pumpdown (enterPhase e .pumpdown (some (s.now + x.cfg.pumpdown)) s)))

/-- R134: entry to HEAT; the termination temperature is in use from here on (R122). -/
def enterHeat (e : Fin 12) (s : State) : State :=
  placeEvap e .heat
    ((enterPhase e .heat (some (s.now + (s.evap e).cfg.maxHeat)) s).updEvap e fun x =>
      { x with terminationInUse := x.cfg.termination })

/-- R135: entry to DRIP. -/
def enterDrip (e : Fin 12) (s : State) : State :=
  placeEvap e .drip
    ((enterPhase e .drip (some (s.now + (s.evap e).cfg.drip)) s).updEvap e fun x => { x with extensions := 0 })

/-- R133: DFC takes a HELD notice. -/
def heldNotice (e : Fin 12) (s : State) : State :=
  match (s.evap e).phase with
  | .allotted => enterPumpdown e (s.updEvap e fun x => { x with holdConfirmed := true })
  | .fault => s.updEvap e fun x => { x with holdConfirmed := true }
  | _ => s

/-! ## The room hold claims (R98, R99) -/

/-- Add an evaporator to a claim set kept by rising number; a mark already there is replaced. -/
def insertClaim (e : Fin 12) (forced : Bool) : List (Fin 12 × Bool) → List (Fin 12 × Bool)
  | [] => [(e, forced)]
  | (j, m) :: rest =>
    if e < j then (e, forced) :: (j, m) :: rest
    else if e = j then (e, forced) :: rest
    else (j, m) :: insertClaim e forced rest

/-- The state of a claim set that is not HELD (R98). -/
def waitingState (claims : List (Fin 12 × Bool)) : HoldState :=
  if claims.isEmpty then .none else if claims.any (·.2) then .forcedPending else .waiting

/-- The hold becomes HELD: a HELD notice for every evaporator of the claim set (R98). -/
def becomeHeld (r : Fin 8) (s : State) : State :=
  let t := s.updHold r fun h => { h with state := .held }
  t.forEach ((t.hold r).claims.map (·.1)) heldNotice

/-- R98: a hold claim. Taken while HELD, it gets its own HELD notice at once. -/
def holdClaim (r : Fin 8) (e : Fin 12) (forced : Bool) (s : State) : State :=
  let t := s.updHold r fun h => { h with claims := insertClaim e forced h.claims }
  if (s.hold r).state = .held then heldNotice e t
  else if s.roomClosed r then becomeHeld r t
  else t.updHold r fun h => { h with state := waitingState h.claims }

/-- R98: a forcing claim; for an evaporator not in the set it changes nothing. -/
def forcingClaim (r : Fin 8) (e : Fin 12) (s : State) : State :=
  if (s.hold r).claims.any (·.1 = e) then
    s.updHold r fun h =>
      { claims := insertClaim e true h.claims, state := if h.state = .held then .held else .forcedPending }
  else s

/-- R98: a withdrawal; for an evaporator not in the set it changes nothing. -/
def holdWithdrawal (r : Fin 8) (e : Fin 12) (s : State) : State :=
  if (s.hold r).claims.any (·.1 = e) then
    s.updHold r fun h =>
      let rest := h.claims.filter (·.1 ≠ e)
      { claims := rest, state := if h.state = .held && !rest.isEmpty then .held else waitingState rest }
  else s

/-- R99: re-evaluation of a room's hold. -/
def reevaluateHold (r : Fin 8) (s : State) : State :=
  if ((s.hold r).state = .waiting || (s.hold r).state = .forcedPending) && s.roomClosed r then becomeHeld r s else s

/-! ## The allowance (R128, R129, R132) -/

/-- R129: grant order: forced first, then earliest demand-since, then lowest number. -/
def grantBefore (s : State) (a b : Fin 12) : Bool :=
  let x := s.evap a
  let y := s.evap b
  if x.forced ≠ y.forced then x.forced
  else if x.demandSince.getD 0 ≠ y.demandSince.getD 0 then x.demandSince.getD 0 < y.demandSince.getD 0
  else a < b

/-- R129: the waiting list: the evaporators in DEMANDED, in grant order. -/
def State.waitingList (s : State) : List (Fin 12) :=
  sortBy (grantBefore s) ((List.finRange 12).filter fun e => (s.evap e).phase = .demanded)

/-- R132: a grant makes a DEMANDED evaporator ALLOTTED and sends DKC its hold claim. -/
def grantAllowance (e : Fin 12) (s : State) : State :=
  let t := (enterPhase e .allotted none s).updEvap e fun x =>
    { x with allowanceHeld := true, holdConfirmed := false, heatTerminated := false }
  holdClaim (s.evap e).cfg.room e (s.evap e).forced t

/-- R129: at most `fuel` grants, while allowance is free and a waiting evaporator's controller is not lost. -/
def allowanceLoop : Nat → State → State
  | 0, s => s
  | fuel + 1, s =>
    if s.allowanceUsed < s.dfc.allowance then
      match s.waitingList.find? fun e => !(s.evap e).lost with
      | some e => allowanceLoop fuel (grantAllowance e s)
      | none => s
    else s

/-- R129: an allowance pass, made in RUN alone. There are 12 evaporators, so 12 grants at most. -/
def allowancePass (s : State) : State := if s.mode = .run then allowanceLoop 12 s else s

/-- The evaporator gives up its allowance and withdraws its claim (R136, R138, R140 to R142). -/
def releaseAllowance (e : Fin 12) (s : State) : State :=
  holdWithdrawal (s.evap e).cfg.room e (s.updEvap e fun x => { x with allowanceHeld := false })

/-! ## Deferral (R130) -/

/-- R130: the deadline expires: forced, DEFROST_DEFERRED, and the forcing claim in ALLOTTED. -/
def deferralExpires (e : Fin 12) (s : State) : State :=
  let t := raiseAlarm .defrostDeferred (.evap e) none
    (s.updEvap e fun x => { x with forced := true, deferralDue := none })
  if (s.evap e).phase = .allotted then forcingClaim (s.evap e).cfg.room e t else t

/-- R130: the wait starts, in RUN, for an unforced evaporator in DEMANDED or ALLOTTED; a deadline at or before now expires at
once. The deadline is computed from the deferral limit as it stands then, also for a demand older than the setting (log entry 53).
The allowance pass that follows an expiry is the caller's. -/
def startDeferral (e : Fin 12) (s : State) : State :=
  let x := s.evap e
  if s.mode = .run && (x.phase = .demanded || x.phase = .allotted) && !x.forced then
    let due := x.demandSince.getD s.now + x.cfg.deferral * 60
    if due ≤ s.now then deferralExpires e s else s.updEvap e fun x => { x with deferralDue := some due }
  else s

/-- R127: a demand is raised on an IDLE evaporator. -/
def raiseDemand (e : Fin 12) (s : State) : State :=
  let t := (enterPhase e .demanded none s).updEvap e fun x => { x with demandSince := some s.now }
  allowancePass (startDeferral e t)

/-! ## Frost (R125, R126) -/

/-- IDLE, DEMANDED and ALLOTTED accrue frost (R125, R126). -/
def Evap.accruesFrost (x : Evap) : Bool :=
  x.cfg.configured && (x.phase = .idle || x.phase = .demanded || x.phase = .allotted)

/-- Add frost, saturating at 1000. -/
def addFrost (n : Nat) (x : Evap) : Evap := { x with frost := min Config.frostFull (x.frost + n) }

/-- A demand where the evaporator is IDLE with a full frost load (R125, R126). -/
def demandIfFull (e : Fin 12) (s : State) : State :=
  if (s.evap e).cfg.configured && (s.evap e).phase = .idle && (s.evap e).frost = Config.frostFull then raiseDemand e s else s

/-- R125: the frost of one expiry, then the demands, by ascending number with an allowance pass after each (log entry 41). -/
def frostExpiry (s : State) : State :=
  let t := s.forEach (List.finRange 12) fun e s =>
    if (s.evap e).accruesFrost then
      s.updEvap e (addFrost ((s.evap e).cfg.baseRate + s.openDoors (s.evap e).cfg.room * (s.evap e).cfg.doorRate))
    else s
  t.forEach (List.finRange 12) demandIfFull

/-- R126: a portal passage notice for a room: its evaporators by ascending number, each with its demand (log entry 41). -/
def portalPassage (r : Fin 8) (s : State) : State :=
  s.forEach (List.finRange 12) fun e s =>
    if (s.evap e).boundTo r && (s.evap e).accruesFrost then
      demandIfFull e (s.updEvap e (addFrost (s.evap e).cfg.portalRate))
    else s

/-! ## The end of DRIP and REFREEZE (R136, R137) -/

/-- R136: the drip deadline expires: REFREEZE, with the fan-start temperature in use from here on (R122). -/
def endDrip (e : Fin 12) (s : State) : State :=
  let t := (enterPhase e .refreeze (some (s.now + (s.evap e).cfg.refreeze)) s).updEvap e fun x =>
    { x with fanStartInUse := x.cfg.fanStart }
  allowancePass (placeEvap e .refreeze (releaseAllowance e t))

/-- R137: REFREEZE ends into IDLE. -/
def endRefreeze (e : Fin 12) (s : State) : State :=
  let t := placeEvap e .run (enterPhase e .idle none s)
  let t := if (s.evap e).heatTerminated then clearAlarm .defrostOverrun (.evap e) t else t
  t.updEvap e fun x =>
    { x with frost := 0, forced := false, demandSince := none, holdConfirmed := false, heatTerminated := false }

/-- R135: HEAT ends on temperature. -/
def endHeatOnTemperature (e : Fin 12) (s : State) : State :=
  enterDrip e (s.updEvap e fun x => { x with heatTerminated := true })

/-! ## Reports, loss and rehearing (R123, R124, R138, R139) -/

/-- R123: the expected controller phase; FAULT expects nothing. -/
def Phase.expected : Phase → Option CtlPhase
  | .idle | .demanded | .allotted => some .run
  | .pumpdown => some .pumpdown
  | .heat => some .heat
  | .drip => some .drip
  | .refreeze => some .refreeze
  | .fault => none

/-- R139: a lost controller is heard again; its report is taken after this. -/
def controllerHeard (e : Fin 12) (s : State) : State :=
  let t := s.updEvap e fun x => { x with lost := false }
  match (s.evap e).phase with
  | .fault =>
    if (s.evap e).holdConfirmed then clearAlarm .defrostStuck (.evap e) (enterDrip e t)
    else clearAlarm .defrostStuck (.evap e) (startDeferral e (enterPhase e .allotted none t))
  | .demanded => allowancePass t
  | _ => t

/-- R124: the effect of a report by phase, HEAT and REFREEZE judged by the temperatures in use (R122). `fresh` says the report is not the
answer that made the controller heard again, which does not count as an extension request (R139); `before` is the extension request of
the previous last report. -/
def controllerPhaseEffect (e : Fin 12) (fresh before : Bool) (rep : CtlReport) (s : State) : State :=
  let x := s.evap e
  match x.phase with
  | .heat => if x.terminationInUse ≤ rep.coil then endHeatOnTemperature e s else s
  | .drip =>
    if fresh && rep.extension && !before && x.extensions < 2 then
      s.updEvap e fun x =>
        { x with extensions := x.extensions + 1, deadline := x.deadline.map (· + Config.dripExtension) }
    else s
  | .refreeze => if rep.coil ≤ x.fanStartInUse then endRefreeze e s else s
  | _ => s

/-- R124: a report that disagrees with the phase it leaves has the phase's command placed again. -/
def controllerDisagree (e : Fin 12) (rep : CtlReport) (s : State) : State :=
  match (s.evap e).phase.expected with
  | none => s
  | some c => if rep.phase ≠ c || rep.heaterOn ≠ decide (c = .heat) then placeEvap e c s else s

/-- R124: a controller report, taken whole, after any heard-again notice. -/
def takeControllerReport (e : Fin 12) (fresh : Bool) (rep : CtlReport) (s : State) : State :=
  let before := (s.evap e).last.extension
  let t := s.updEvap e fun x => { x with last := rep }
  controllerDisagree e rep (controllerPhaseEffect e fresh before rep t)

/-- R138: a controller is lost. -/
def controllerLost (e : Fin 12) (s : State) : State :=
  let t := s.updEvap e fun x => { x with lost := true }
  match (s.evap e).phase with
  | .allotted =>
    let u := (releaseAllowance e (enterPhase e .demanded none t)).updEvap e fun x => { x with holdConfirmed := false }
    allowancePass (startDeferral e u)
  | .pumpdown | .heat | .drip => raiseAlarm .defrostStuck (.evap e) none (enterPhase e .fault none t)
  | _ => t

/-! ## Mode changes and warm restart (R142, R144) -/

/-- The frost interval stops and every deferral wait is cancelled (R142). -/
def stopFrost (s : State) : State :=
  s.withDfc { s.dfc with frostDue := none, evaps := s.dfc.evaps.map fun x => { x with deferralDue := none } }

/-- R142: one evaporator at entry to HOLDOVER or RETAIN. -/
def abandonDefrost (e : Fin 12) (s : State) : State :=
  let toDemanded (t : State) : State :=
    (releaseAllowance e (enterPhase e .demanded none t)).updEvap e fun x =>
      { x with holdConfirmed := false, heatTerminated := false }
  match (s.evap e).phase with
  | .allotted => toDemanded s
  | .pumpdown | .heat | .drip => placeEvap e .run (toDemanded s)
  | .refreeze =>
    placeEvap e .run ((enterPhase e .idle none s).updEvap e fun x =>
      { x with frost := 0, forced := false, demandSince := none })
  | _ => s

/-- R142: DFC takes the notice of a mode change. The waits of R130 that are due at the entry to RUN all expire before the one
allowance pass (log entry 12). -/
def dfcNotice (entered : Mode) (s : State) : State :=
  match entered with
  | .holdover | .retain => (stopFrost s).forEach (List.finRange 12) abandonDefrost
  | .standby | .checking => stopFrost s
  | .run =>
    let t := s.withDfc { s.dfc with frostDue := some (s.now + Config.frostInterval) }
    allowancePass (t.forEach (List.finRange 12) startDeferral)

/-- R144: ALLOTTED to DRIP become FAULT at a warm restart. -/
def Phase.restarts : Phase → Bool
  | .allotted | .pumpdown | .heat | .drip => true
  | _ => false

/-- R144: one evaporator at a warm restart; allowance and claim are kept, and no alarm is raised. -/
def evapRestart (e : Fin 12) (s : State) : State :=
  if (s.evap e).phase.restarts then enterPhase e .fault none s else s

/-- R144: DFC at a warm restart. -/
def dfcWarmRestart (s : State) : State := (stopFrost s).forEach (List.finRange 12) evapRestart

/-- R128: a SITE_SET clock change moves a time, with 0 as the lowest value. -/
def moveTime (old new t : Time) : Time := t + new - old

end Sys2Proof.Machine
end

