-- ==== Sys2Proof/Machine/Operands.lean ====
section
/-! DEFINITION. The byte layouts of 11_frame_and_record_layouts.md: the check, numbers and codes, place codes, link frames and lane
messages, each with its reader and its writer. -/

namespace Sys2Proof.Machine

/-! ## The check (R198) -/

/-- One bit of the CRC with generator 1021h, most significant bit first. -/
def crcBit (c : BitVec 16) : BitVec 16 := if c.msb then (c <<< 1) ^^^ 0x1021#16 else c <<< 1

/-- One byte of the CRC. -/
def crcByte (c : BitVec 16) (b : Byte) : BitVec 16 :=
  crcBit (crcBit (crcBit (crcBit (crcBit (crcBit (crcBit (crcBit (c ^^^ (b ++ 0#8)))))))))

/-- CRC-16 with initial value FFFFh and no final step (R198). -/
def crc (bs : List Byte) : BitVec 16 := bs.foldl crcByte 0xFFFF#16

/-! ## Numbers, most significant byte first -/

/-- The low `k` bytes of `n`, most significant first. -/
def be : Nat → Nat → List Byte
  | 0, _ => []
  | k + 1, n => BitVec.ofNat 8 (n / 256 ^ k) :: be k n

/-- The number that bytes spell, most significant first. -/
def beNat (bs : List Byte) : Nat := bs.foldl (fun a b => a * 256 + b.toNat) 0

/-- A frame or message with its check, high byte first (R198). -/
def withCheck (bs : List Byte) : List Byte := bs ++ be 2 (crc bs).toNat

/-- The bytes before the check, if the check passes (R198). -/
def stripCheck (bs : List Byte) : Option (List Byte) :=
  let body := bs.take (bs.length - 2)
  if 2 ≤ bs.length ∧ bs.drop (bs.length - 2) = be 2 (crc body).toNat then some body else none

def num1 (n : Nat) : List Byte := be 1 n
/-- A plain number: 16 bits unless a table gives another width (log entry 5). -/
def num2 (n : Nat) : List Byte := be 2 n
def temp2 (t : Temp) : List Byte := be 2 (BitVec.ofInt 16 t).toNat
/-- A site clock time: 32 bits; a time past them is a free value (log entry 10). -/
def time4 (t : Time) : List Byte :=
  if t ≤ Config.clockMax then be 4 t else be 4 (Config.timeBytesPast t).toNat
def flag1 (b : Bool) : List Byte := [if b then 1#8 else 0#8]
def tag6 (t : Tag) : List Byte := be 6 t.toNat
/-- An optional time: a presence flag and four bytes, 0 when absent (R200). -/
def optTime (t : Option Time) : List Byte :=
  match t with
  | none => flag1 false ++ be 4 0
  | some t => flag1 true ++ time4 t
/-- Any other optional field: a presence flag and `width` bytes, 0 when absent (R201). -/
def optField (width : Nat) (f : Option (List Byte)) : List Byte :=
  match f with
  | none => flag1 false ++ be width 0
  | some bs => flag1 true ++ bs
/-- A list: a one-byte count and its entries (R200). -/
def listOf {α : Type} (f : α → List Byte) (xs : List α) : List Byte := num1 xs.length ++ xs.flatMap f

/-- A temperature read from two bytes. -/
def readTemp (hi lo : Byte) : Temp := (hi ++ lo).toInt
/-- A one-byte flag: 00h or 01h (11, opening). -/
def readFlag (b : Byte) : Option Bool := if b = 0#8 then some false else if b = 1#8 then some true else none

/-! ## Identifiers and places (11.4, R202) -/

def Handle.code (h : Handle) : Nat := h.gen.1 * 4096 + h.index.1
def OrderId.code (o : OrderId) : Nat := o.gen.1 * 4096 + o.index.1
def readHandle (n : Nat) : Handle := { index := Fin.ofNat 4096 n, gen := Fin.ofNat 16 (n / 4096) }
def readOrderId (n : Nat) : OrderId := { index := Fin.ofNat 4096 n, gen := Fin.ofNat 16 (n / 4096) }
def handle2 (h : Handle) : List Byte := be 2 h.code
def order2 (o : OrderId) : List Byte := be 2 o.code
/-- An absent order identifier is FFFFh (R200). -/
def optOrder (o : Option OrderId) : List Byte :=
  match o with
  | none => be 2 0xFFFF
  | some o => order2 o

/-- The place code of a place (11.4). -/
def Place.code : Place → Nat
  | .atDoor d => 1 * 8192 + d.1
  | .lane d => 2 * 8192 + d.1
  | .slot n => 3 * 8192 + n.1
  | .floor r => 4 * 8192 + r.1
  | .carried o => 5 * 8192 + o.gen.1 * 128 + o.index.1 % 128
def place2 (p : Place) : List Byte := be 2 p.code

/-- The destination a 16-bit code names; none where the code is not of one of the five forms of R47 and R202. -/
def readDest (n : Nat) : Option Dest :=
  let a := n % 8192
  match n / 8192 with
  | 1 => if h : a < 24 then some (.place (.atDoor ⟨a, h⟩)) else none
  | 2 => if h : a < 24 then some (.place (.lane ⟨a, h⟩)) else none
  | 3 => if h : a < 4096 then some (.place (.slot ⟨a, h⟩)) else none
  | 4 => if h : a < 8 then some (.place (.floor ⟨a, h⟩)) else none
  | 6 => if h : a < 8 then some (.anySlot ⟨a, h⟩) else none
  | _ => none

/-- A number within range. -/
def readFin (n : Nat) (k : Nat) : Option (Fin k) := if h : n < k then some ⟨n, h⟩ else none

/-! ## Codes (11.3, R199, R201) -/

def ResultCode.byte : ResultCode → Byte
  | .ok => 0x00 | .accepted => 0x01 | .already => 0x02 | .badArg => 0x10 | .unknownRequest => 0x11 | .mode => 0x12
  | .supply => 0x13 | .queueFull => 0x14 | .staleHandle => 0x20 | .notFound => 0x21 | .duplicateTag => 0x22
  | .tableFull => 0x23 | .busy => 0x24 | .occupied => 0x25 | .locked => 0x26 | .held => 0x27 | .destFull => 0x28
  | .doorState => 0x30 | .doorInUse => 0x31 | .notEmpty => 0x32 | .settling => 0x33 | .defrostHold => 0x34
  | .inCarry => 0x38 | .orderState => 0x39 | .evapState => 0x3A | .tooSoon => 0x3B

def RoomKind.byte : RoomKind → Byte
  | .unused => 0 | .dock => 1 | .freezer => 2 | .blast => 3
def readRoomKind (b : Byte) : Option RoomKind :=
  match b.toNat with
  | 0 => some .unused | 1 => some .dock | 2 => some .freezer | 3 => some .blast | _ => none
def SlotState.byte : SlotState → Byte
  | .free => 0 | .reserved _ => 1 | .occupied _ => 2 | .blocked => 3
def Priority.byte : Priority → Byte
  | .normal => 0 | .urgent => 1
def readPriority (b : Byte) : Option Priority :=
  match b.toNat with
  | 0 => some .normal | 1 => some .urgent | _ => none
def Direction.byte : Direction → Byte
  | .inbound => 0 | .outbound => 1
def readDirection (b : Byte) : Option Direction :=
  match b.toNat with
  | 0 => some .inbound | 1 => some .outbound | _ => none
def DoorState.byte : DoorState → Byte
  | .vacant => 0 | .arrived => 1 | .sealing => 2 | .sealed => 3 | .opening => 4 | .opened => 5 | .closing => 6
  | .unsealing => 7 | .fault => 8 | .offline => 9
def FaultCode.byte : FaultCode → Byte
  | .leafTimeout => 1 | .unsealTimeout => 2 | .trailerLost => 3 | .sealLost => 4 | .uncommandedLeaf => 5
  | .stationFault => 6 | .reconcile => 7
def Leaf.byte : Leaf → Byte
  | .closed => 0 | .moving => 1 | .opened => 2 | .unknown => 3
def readLeaf (b : Byte) : Option Leaf :=
  match b.toNat with
  | 0 => some .closed | 1 => some .moving | 2 => some .opened | 3 => some .unknown | _ => none
def DoorOutcome.byte : DoorOutcome → Byte
  | .none => 0 | .sealOk => 1 | .sealFailed => 2 | .opened => 3 | .closed => 4 | .released _ => 5 | .leftOnTrailer _ => 6
  | .faultCleared => 7
def DoorOutcome.pallets : DoorOutcome → Nat
  | .released n => n | .leftOnTrailer n => n | _ => 0
def HoldState.byte : HoldState → Byte
  | .none => 0 | .waiting => 1 | .forcedPending => 2 | .held => 3
def OrderState.byte : OrderState → Byte
  | .queued => 0 | .granted => 1 | .carrying => 2 | .finished => 3
def Outcome.bytes : Outcome → List Byte
  | .done => [1, 0] | .withdrawnCancelled => [2, 1] | .withdrawnHeld => [2, 2] | .withdrawnTrailerGone => [2, 3]
  | .abandonedTerminal => [3, 4] | .abandonedCancelled => [3, 1]
def TermState.byte : TermState → Byte
  | .disabled => 0 | .offline => 1 | .idle => 2 | .granted => 3 | .carrying => 4
def ProbeStatus.byte : ProbeStatus → Byte
  | .ok => 0 | .absent => 1 | .outOfRange => 2 | .flagged => 3 | .silent => 4
def ThermalState.byte : ThermalState → Byte
  | .unwatched => 0 | .normal => 1 | .warm => 2 | .excursion => 3 | .stale => 4
def Phase.byte : Phase → Byte
  | .idle => 0 | .demanded => 1 | .allotted => 2 | .pumpdown => 3 | .heat => 4 | .drip => 5 | .refreeze => 6 | .fault => 7
def CtlPhase.byte : CtlPhase → Byte
  | .run => 0 | .pumpdown => 1 | .heat => 2 | .drip => 3 | .refreeze => 4
def readCtlPhase (b : Byte) : Option CtlPhase :=
  match b.toNat with
  | 0 => some .run | 1 => some .pumpdown | 2 => some .heat | 3 => some .drip | 4 => some .refreeze | _ => none
def Mode.byte : Mode → Byte
  | .standby => 0 | .checking => 1 | .run => 2 | .holdover => 3 | .retain => 4
def strapByte : Strap → Byte
  | .hostOnly => 0 | .terminal => 1
def SelfCheck.bytes : SelfCheck → List Byte
  | .none => [0, 0] | .inProgress => [1, 0] | .passed => [2, 0] | .configInvalid n => [3, BitVec.ofNat 8 n]
  | .supply => [4, 0] | .rollCallTimeout => [5, 0] | .abandoned => [6, 0]

/-- The single-cause code (R199). -/
def Cause.byte : Cause → Byte
  | .supply => 1 | .alarm => 2 | .door => 3 | .defrost => 4 | .move => 5 | .room => 6 | .link => 7
def readCause (b : Byte) : Option Cause :=
  match b.toNat with
  | 1 => some .supply | 2 => some .alarm | 3 => some .door | 4 => some .defrost | 5 => some .move | 6 => some .room
  | 7 => some .link | _ => none
/-- A set of causes in one byte (R199). -/
def CauseFlags.byte (f : CauseFlags) : Byte :=
  BitVec.ofNat 8 (f.supply.toNat + 2 * f.alarm.toNat + 4 * f.door.toNat + 8 * f.defrost.toNat + 16 * f.move.toNat
    + 32 * f.room.toNat + 64 * f.link.toNat)
def readCauseFlags (b : Byte) : CauseFlags :=
  { supply := b.getLsbD 0, alarm := b.getLsbD 1, door := b.getLsbD 2, defrost := b.getLsbD 3, move := b.getLsbD 4,
    room := b.getLsbD 5, link := b.getLsbD 6 }
/-- The LINK reasons in one byte (R199). -/
def LinkReasons.byte (r : LinkReasons) : Byte :=
  BitVec.ofNat 8 (r.frame.toNat + 2 * r.notReady.toNat + 4 * r.linkReset.toNat + 8 * r.warmRestart.toNat
    + 16 * r.coldStart.toNat)
/-- The holds byte (R203). -/
def Holds.byte (h : Holds) : Byte :=
  BitVec.ofNat 8 (h.exposure.toNat + 2 * h.quality.toNat + 4 * h.placeUncertain.toNat)

/-! ## Alarm records (11.5) -/

def AlarmKind.byte : AlarmKind → Byte
  | .doorOpenLong => 0x01 | .doorFault => 0x02 | .trailerLost => 0x03 | .sealFailed => 0x04 | .roomWarm => 0x05
  | .roomStale => 0x06 | .probeFault => 0x07 | .palletExposed => 0x08 | .placeUncertain => 0x09 | .defrostOverrun => 0x0A
  | .defrostStuck => 0x0B | .defrostDeferred => 0x0C | .terminalLost => 0x0D | .stationLost => 0x0E | .supplyLoss => 0x0F
def readAlarmKind (b : Byte) : Option AlarmKind :=
  match b.toNat with
  | 1 => some .doorOpenLong | 2 => some .doorFault | 3 => some .trailerLost | 4 => some .sealFailed | 5 => some .roomWarm
  | 6 => some .roomStale | 7 => some .probeFault | 8 => some .palletExposed | 9 => some .placeUncertain
  | 10 => some .defrostOverrun | 11 => some .defrostStuck | 12 => some .defrostDeferred | 13 => some .terminalLost
  | 14 => some .stationLost | 15 => some .supplyLoss | _ => none

/-- The subject type of a kind (R146), as its code (11.5). -/
def AlarmKind.subjectType : AlarmKind → Nat
  | .doorOpenLong | .doorFault | .trailerLost | .sealFailed => 1
  | .roomWarm | .roomStale => 2
  | .probeFault => 3
  | .palletExposed | .placeUncertain => 4
  | .defrostOverrun | .defrostStuck | .defrostDeferred => 5
  | .terminalLost => 6
  | .stationLost => 7
  | .supplyLoss => 8

/-- Subject type and subject number (11.5). -/
def Subject.bytes : Subject → List Byte
  | .door d => 1 :: be 2 d.1
  | .room r => 2 :: be 2 r.1
  | .probe p => 3 :: be 2 p.1
  | .pallet h => 4 :: handle2 h
  | .evap e => 5 :: be 2 e.1
  | .terminal t => 6 :: be 2 t.1
  | .station st => 7 :: [BitVec.ofNat 8 (laneSlot st.lane).1, BitVec.ofNat 8 st.address]
  | .site => 8 :: be 2 0

/-- The subject that a subject type and number name, within the range R146 gives. -/
def readSubject (type n : Nat) : Option Subject :=
  match type with
  | 1 => (readFin n 24).map .door
  | 2 => (readFin n 8).map .room
  | 3 => (readFin n 32).map .probe
  | 4 => some (.pallet (readHandle n))
  | 5 => (readFin n 12).map .evap
  | 6 => (readFin n 16).map .terminal
  | 7 =>
    match n / 256 with
    | 0 => (readFin (n % 256) 24).map fun d => .station (.door d)
    | 1 => (readFin (n % 256) 8).map fun r => .station (.hub r)
    | 2 => (readFin (n % 256) 12).map fun e => .station (.evap e)
    | _ => none
  | 8 => if n = 0 then some .site else none
  | _ => none

/-- One pair as ALARM_ACK and ALARM_READ name it (R153): kind, subject type, subject number. -/
def readPair (k t : Byte) (n : Nat) : Option (AlarmKind × Subject) :=
  match readAlarmKind k with
  | some kind =>
    if t.toNat = kind.subjectType then (readSubject t.toNat n).map fun sub => (kind, sub) else none
  | none => none

def AlarmState.byte : AlarmState → Byte
  | .raised => 1 | .acked => 2 | .cleared => 3
def AlarmValue.bytes : AlarmValue → List Byte
  | .temp t => temp2 t
  | .exposure n => be 2 n
  | .faultCode c => be 2 c.byte.toNat
  | .probeStatus st => be 2 st.byte.toNat

/-- The 18 bytes of an alarm record (11.5). -/
def alarmBytes (position : Nat) (r : AlarmRec) : List Byte :=
  num1 position ++ [r.kind.byte] ++ r.subject.bytes ++ [r.state.byte] ++ time4 r.firstRaised ++ time4 r.lastRaised
    ++ num1 r.count ++ optField 2 (r.value.map AlarmValue.bytes)

/-! ## Link frames (11.2, R200) -/

/-- An answer frame on the link. -/
def AnswerFrame.bytes (a : AnswerFrame) : List Byte :=
  withCheck ([0x5A#8, a.tag, a.code, a.result.byte] ++ num1 a.results.length ++ a.results)

/-- An idle frame on the link. -/
def idleBytes (causes : Byte) (urgent normal : Nat) : List Byte :=
  withCheck ([0x3C#8, causes] ++ num1 urgent ++ num1 normal)

/-- A request frame on the link. -/
def RequestFrame.bytes (urgent : Bool) (f : RequestFrame) : List Byte :=
  withCheck ([0xA5#8, f.tag] ++ flag1 urgent ++ [f.code] ++ num1 f.args.length ++ f.args)

/-- What the bytes received in an exchange are (R172, R200). -/
inductive LinkInput where
  | fill
  | bad
  | request (urgent : Bool) (f : RequestFrame)
deriving DecidableEq, Repr

/-- R200: the judgement of the received bytes. -/
def judgeFrame (bs : List Byte) : LinkInput :=
  match bs with
  | [] => .fill
  | b0 :: rest =>
    if b0 = 0x00#8 ∨ b0 = 0xFF#8 then .fill
    else if b0 ≠ 0xA5#8 then .bad
    else match rest with
      | tag :: urgency :: code :: n :: more =>
        match readFlag urgency with
        | none => .bad
        | some urgent =>
          if 200 < n.toNat ∨ more.length < n.toNat + 2 then .bad
          else
            let args := more.take n.toNat
            if (more.drop n.toNat).take 2 = be 2 (crc ([b0, tag, urgency, code, n] ++ args)).toNat then
              .request urgent { tag := tag, code := code, args := args }
            else .bad
      | _ => .bad

/-! ## Lane messages (11.6, R204) -/

/-- The sensor indication of a probe set entry (R104). -/
inductive Indication where
  | present | notPresent | sensorFault
deriving DecidableEq, Repr

/-- One entry of a probe set report (R104). -/
structure ProbeEntry where
  reading : Temp
  indication : Indication
deriving DecidableEq, Repr

/-- A report (R165). Places are carried as the code on the lane; MDS compares codes whole (R204). -/
inductive Report where
  | door (r : DoorReport)
  | probes (p0 p1 p2 p3 : ProbeEntry)
  | controller (r : CtlReport)
  | picked (tag : Tag) (place : Nat)
  | dropped (place : Nat)
  | abandon (room : Nat)
  | submit (tag : Tag)
  | ready (handsFull : Bool)
deriving DecidableEq, Repr

def readIndication (b : Byte) : Option Indication :=
  match b.toNat with
  | 0 => some .present | 1 => some .notPresent | 2 => some .sensorFault | _ => none
def readProbeEntry (hi lo ind : Byte) : Option ProbeEntry :=
  (readIndication ind).map fun i => { reading := readTemp hi lo, indication := i }

/-- The kind bits of a place in a terminal report are not 0 or 7 (R204). -/
def reportPlaceOk (n : Nat) : Bool := n / 8192 ≠ 0 && n / 8192 ≠ 7

/-- The report that a kind and contents spell on a lane: the kind, the length and the coded fields are judged (R160, R204). -/
def readReport (lane : Lane) (kind : Byte) (contents : List Byte) : Option Report :=
  match lane, kind.toNat, contents with
  | .door, 0x10, [leaf, sl, trailer, stationFault] =>
    match readLeaf leaf, readFlag sl, readFlag trailer with
    | some l, some ok, some tr => some (.door { leaf := l, sealOk := ok, trailer := tr, stationFault := stationFault })
    | _, _, _ => none
  | .probe, 0x20, [a0, a1, a2, b0, b1, b2, c0, c1, c2, d0, d1, d2] =>
    match readProbeEntry a0 a1 a2, readProbeEntry b0 b1 b2, readProbeEntry c0 c1 c2, readProbeEntry d0 d1 d2 with
    | some p0, some p1, some p2, some p3 => some (.probes p0 p1 p2 p3)
    | _, _, _, _ => none
  | .evap, 0x30, [phase, hi, lo, heater, extension] =>
    match readCtlPhase phase, readFlag heater, readFlag extension with
    | some p, some h, some x => some (.controller { phase := p, coil := readTemp hi lo, heaterOn := h, extension := x })
    | _, _, _ => none
  | .term, 0x40, [t5, t4, t3, t2, t1, t0, hi, lo] =>
    let p := beNat [hi, lo]
    if reportPlaceOk p then some (.picked (BitVec.ofNat 48 (beNat [t5, t4, t3, t2, t1, t0])) p) else none
  | .term, 0x41, [hi, lo] =>
    let p := beNat [hi, lo]
    if reportPlaceOk p then some (.dropped p) else none
  | .term, 0x42, [r] => some (.abandon r.toNat)
  | .term, 0x43, [t5, t4, t3, t2, t1, t0] => some (.submit (BitVec.ofNat 48 (beNat [t5, t4, t3, t2, t1, t0])))
  | .term, 0x44, [h] => (readFlag h).map .ready
  | _, _, _ => none

/-- R160: the report of a good answer to the poll of station `st` with sequence number `seqNo`; none for a missed poll. -/
def judgeAnswer (st : StationId) (seqNo : Byte) (bs : List Byte) : Option Report :=
  match stripCheck bs with
  | some (addr :: q :: kind :: len :: contents) =>
    if addr.toNat = st.address ∧ q = seqNo ∧ len.toNat = contents.length then readReport st.lane kind contents else none
  | _ => none

def Indication.byte : Indication → Byte
  | .present => 0 | .notPresent => 1 | .sensorFault => 2
def ProbeEntry.bytes (p : ProbeEntry) : List Byte := temp2 p.reading ++ [p.indication.byte]

/-- The kind of a report on the lane (R204). -/
def Report.kindByte : Report → Byte
  | .door _ => 0x10 | .probes _ _ _ _ => 0x20 | .controller _ => 0x30 | .picked _ _ => 0x40 | .dropped _ => 0x41
  | .abandon _ => 0x42 | .submit _ => 0x43 | .ready _ => 0x44

/-- The contents of a report on the lane (R204). -/
def Report.contents : Report → List Byte
  | .door r => [r.leaf.byte] ++ flag1 r.sealOk ++ flag1 r.trailer ++ [r.stationFault]
  | .probes p0 p1 p2 p3 => p0.bytes ++ p1.bytes ++ p2.bytes ++ p3.bytes
  | .controller r => [r.phase.byte] ++ temp2 r.coil ++ flag1 r.heaterOn ++ flag1 r.extension
  | .picked t p => tag6 t ++ be 2 p
  | .dropped p => be 2 p
  | .abandon r => num1 r
  | .submit t => tag6 t
  | .ready h => flag1 h

/-- The lane of a report (R165). -/
def Report.lane : Report → Lane
  | .door _ => .door
  | .probes _ _ _ _ => .probe
  | .controller _ => .evap
  | _ => .term

/-- An answer on the lane (11.6). -/
def answerBytes (st : StationId) (seqNo : Byte) (r : Report) : List Byte :=
  withCheck ([BitVec.ofNat 8 st.address, seqNo, r.kindByte] ++ num1 r.contents.length ++ r.contents)

def TermReportKind.byte : TermReportKind → Byte
  | .picked => 0x40 | .dropped => 0x41 | .abandon => 0x42 | .submit => 0x43 | .ready => 0x44
def ActionCode.byte : ActionCode → Byte
  | .unload => 1 | .pickLane => 2 | .pickSlot => 3 | .pickFloor => 4
def RefuseReason.byte : RefuseReason → Byte
  | .pickMismatch => 0x01 | .dropMismatch => 0x02 | .doorShut => 0x03 | .held => 0x04 | .place => 0x05 | .state => 0x06
  | .notEnabled => 0x07 | .mode => 0x08 | .notFound => 0x09 | .busy => 0x0A | .destFull => 0x0B | .tableFull => 0x0C

/-- Command code and contents (R204). -/
def StationCmd.code : StationCmd → Byte
  | .door .inflate => 1 | .door .deflate => 2 | .door .leafUp => 3 | .door .leafDown => 4 | .door .stop => 5
  | .evap .run => 1 | .evap .pumpdown => 2 | .evap .heat => 3 | .evap .drip => 4 | .evap .refreeze => 5
  | .term (.grant ..) => 1 | .term (.revoke _) => 2 | .term (.divert ..) => 3 | .term (.accept ..) => 4
  | .term (.refuse _) => 5
def StationCmd.contents : StationCmd → List Byte
  | .door _ => []
  | .evap _ => []
  | .term (.grant o tag origin dest action) => order2 o ++ tag6 tag ++ place2 origin ++ place2 dest ++ [action.byte]
  | .term (.revoke o) => order2 o
  | .term (.divert o dest) => order2 o ++ place2 dest
  | .term (.accept kind o) => [kind.byte] ++ optOrder o
  | .term (.refuse reason) => [reason.byte]

/-- A poll message (11.6): address, sequence number, and the command if one is carried. -/
def pollBytes (st : StationId) (seqNo : Byte) (cmd : Option StationCmd) : List Byte :=
  match cmd with
  | none => withCheck [BitVec.ofNat 8 st.address, seqNo, 0#8, 0#8]
  | some c => withCheck ([BitVec.ofNat 8 st.address, seqNo, c.code] ++ num1 c.contents.length ++ c.contents)

end Sys2Proof.Machine
end

