-- ==== Sys2Proof/Machine/Thermal.lean ====
section
/-! DEFINITION. TSU: probes (R103 to R106), the room temperature (R109), the thermal state (R110 to R112) and silence (R105). The
accrual interval and the gap rule, which charge pallets, are in Machine/Charges.lean. -/

namespace Sys2Proof.Machine

/-- R103: the room of a probe. -/
def probeRoom (p : Fin 32) : Fin 8 := ⟨p.1 / 4, by omega⟩

/-- R103: the probe at a position of a room. -/
def probeAt (r : Fin 8) (pos : Fin 4) : Fin 32 := ⟨4 * r.1 + pos.1, by omega⟩

/-- The four probes of a room. -/
def roomProbes (r : Fin 8) : List (Fin 32) := (List.finRange 4).map (probeAt r)

/-- R103: the reading is valid. -/
def Probe.valid (p : Probe) : Bool := p.fitted && p.status = .ok && -500 ≤ p.reading && p.reading ≤ 500

/-- R109: the probe is counted, given whether coil-side probes are excluded. -/
def Probe.counts (p : Probe) (excluded : Bool) : Bool := p.valid && !(p.coilSide && excluded)

/-- The highest of some temperatures. -/
def highest : List Temp → Option Temp
  | [] => none
  | t :: rest =>
    match highest rest with
    | none => some t
    | some u => some (max t u)

/-- R109: derive the room temperature. -/
def deriveRoom (r : Fin 8) (s : State) : State :=
  let excluded := s.coilsHot r
  let readings := ((roomProbes r).filter fun p => (s.probe p).counts excluded).map fun p => (s.probe p).reading
  let t := s.forEach (roomProbes r) fun p s => s.updProbe p fun x => { x with counted := x.counts excluded }
  t.updThermal r fun x =>
    match highest readings with
    | some v => { x with temp := v, known := true, coilExcluded := excluded }
    | none => { x with known := false, coilExcluded := excluded }

/-- A room is watched while the mode is RUN or HOLDOVER and its kind is not UNUSED (05, opening). -/
def State.watched (s : State) (r : Fin 8) : Bool := (s.mode = .run || s.mode = .holdover) && s.kind r ≠ .unused

/-- R112: the deadlines at the end of an evaluation. -/
def setDeadlines (now : Time) (x : RoomThermal) : RoomThermal :=
  { x with
    graceEnd :=
      match x.state, x.warmSince with
      | .warm, some w => if now < w + x.grace then some (w + x.grace) else none
      | _, _ => none
    maskEnd := if x.state = .warm ∧ now < x.maskUntil then some x.maskUntil else none
    staleDue :=
      match x.state, x.staleSince, x.staleRaised with
      | .stale, some t, false => some (t + Config.staleTime)
      | _, _, _ => none }

/-- R110: an unwatched room. -/
def unwatch (x : RoomThermal) : RoomThermal :=
  { x with state := .unwatched, warmSince := none, staleSince := none, staleRaised := false }

/-- R111: the thermal record of a watched room after its evaluation, before the deadlines. -/
def evaluated (now : Time) (x : RoomThermal) : RoomThermal :=
  if !x.known then { x with state := .stale, staleSince := some (x.staleSince.getD now) }
  else if x.temp ≤ x.limit then
    { x with state := .normal, warmSince := none, staleSince := none, staleRaised := false }
  else if x.state = .excursion then { x with staleSince := none, staleRaised := false }
  else
    let since := x.warmSince.getD now
    { x with
      state := if since + x.grace ≤ now ∧ x.maskUntil ≤ now then .excursion else .warm
      warmSince := some since, staleSince := none, staleRaised := false }

/-- R111: the alarm claims of a watched room's evaluation, the clear claims before the raise (log entry 39). -/
def evaluationAlarms (r : Fin 8) (before after : RoomThermal) (s : State) : State :=
  match after.state with
  | .normal => clearAlarm .roomStale (.room r) (clearAlarm .roomWarm (.room r) s)
  | .warm => clearAlarm .roomStale (.room r) s
  | .excursion =>
    let t := clearAlarm .roomStale (.room r) s
    if before.state = .excursion then t else raiseAlarm .roomWarm (.room r) (some (.temp after.temp)) t
  | _ => s

/-- R112: a room that has been STALE for 120 s or more raises ROOM_STALE once in its STALE period. -/
def staleAlarm (r : Fin 8) (s : State) : State :=
  let x := s.thermal r
  match x.state, x.staleSince, x.staleRaised with
  | .stale, some t, false =>
    if t + Config.staleTime ≤ s.now then
      raiseAlarm .roomStale (.room r) none (s.updThermal r fun x => { x with staleRaised := true })
    else s
  | _, _, _ => s

/-- A change of thermal state puts the room into the ROOM changed set (R111). -/
def noteThermalChange (r : Fin 8) (before : ThermalState) (s : State) : State :=
  if before = (s.thermal r).state then s else setRoomCause r s

/-- R110, R111, R112: evaluate a room. A room whose kind is UNUSED has its two alarms cleared (log entry 15). A stale alarm
deadline at or before now expires at once. -/
def evaluateRoom (r : Fin 8) (s : State) : State :=
  let before := s.thermal r
  let t :=
    if s.watched r then
      let after := evaluated s.now before
      staleAlarm r (evaluationAlarms r before after (s.updThermal r fun _ => after))
    else
      let t := s.updThermal r unwatch
      if s.kind r = .unused then clearAlarm .roomStale (.room r) (clearAlarm .roomWarm (.room r) t) else t
  noteThermalChange r before.state (t.updThermal r (setDeadlines s.now))

/-- R104: the status and reading that an entry gives a fitted probe. -/
def applyEntry (en : ProbeEntry) (x : Probe) : Probe :=
  match en.indication with
  | .present =>
    { x with reading := en.reading, status := if -500 ≤ en.reading ∧ en.reading ≤ 500 then .ok else .outOfRange }
  | .sensorFault => { x with status := .flagged }
  | .notPresent => { x with status := .absent }

/-- R106: the alarm claim for a change of a fitted probe's status by a hub report or a hub loss. -/
def probeStatusAlarm (p : Fin 32) (before : ProbeStatus) (s : State) : State :=
  let after := (s.probe p).status
  if before = after then s
  else if after = .ok then clearAlarm .probeFault (.probe p) s
  else raiseAlarm .probeFault (.probe p) (some (.probeStatus after)) s

/-- R104: one entry of a hub report; a probe that is not fitted is passed over. -/
def takeProbeEntry (p : Fin 32) (en : ProbeEntry) (s : State) : State :=
  if (s.probe p).fitted then probeStatusAlarm p (s.probe p).status (s.updProbe p (applyEntry en)) else s

/-- R104: a hub report, taken whole. Its probes' alarm claims (R106) go out by ascending position, before those of the room's
evaluation (log entry 39). -/
def takeProbeReport (r : Fin 8) (p0 p1 p2 p3 : ProbeEntry) (s : State) : State :=
  evaluateRoom r (deriveRoom r
    (takeProbeEntry (probeAt r 3) p3 (takeProbeEntry (probeAt r 2) p2
      (takeProbeEntry (probeAt r 1) p1 (takeProbeEntry (probeAt r 0) p0 s)))))

/-- A fitted probe becomes SILENT with its reading kept (R105). -/
def silence (x : Probe) : Probe := if x.fitted then { x with status := .silent } else x

/-- R105: hub loss, with its alarm claims in the order of a hub report's (log entry 39). -/
def hubLost (r : Fin 8) (s : State) : State :=
  evaluateRoom r (deriveRoom r (s.forEach (roomProbes r) fun p s =>
    if (s.probe p).fitted then probeStatusAlarm p (s.probe p).status (s.updProbe p silence) else s))

/-- R105: mode silence: every fitted probe becomes SILENT without alarm, and every room is derived. -/
def modeSilence (s : State) : State :=
  (s.withTsu { s.tsu with probes := s.tsu.probes.map silence }).forEach (List.finRange 8) deriveRoom

/-- Every room is evaluated (R110), by ascending number (log entry 40). -/
def evaluateAll (s : State) : State := s.forEach (List.finRange 8) evaluateRoom

/-- The accrual interval stops; last-accrual is kept (R115). -/
def stopAccrual (s : State) : State := s.withTsu { s.tsu with accrualDue := none }

/-- R120: TSU at a warm restart. -/
def tsuWarmRestart (s : State) : State := evaluateAll (modeSilence (stopAccrual s))

end Sys2Proof.Machine
end

