-- ==== Sys2Proof/Machine/Moves.lean ====
section
/-! DEFINITION. MDS with DKC's use lists and session counts: the order table (R46, R49), route doors (R50), the dispatch pass (R58 to
R60), requeue and withdrawal (R68 to R71), terminals (R72, R73, R76), creation (R51 to R53) and redirect (R74). -/

namespace Sys2Proof.Machine

/-! ## Sessions and use lists at DKC (R50, R95, R96) -/

/-- Door `d` holds a session of direction OUTBOUND (R50). -/
def State.outboundAt (s : State) (d : Fin 24) : Bool := (s.door d).session.any (·.direction = .outbound)

/-- Door `d` holds a session of direction INBOUND. -/
def State.inboundAt (s : State) (d : Fin 24) : Bool := (s.door d).session.any (·.direction = .inbound)

/-- R50: an outbound place. -/
def State.outbound (s : State) : Place → Bool
  | .atDoor d => s.outboundAt d
  | .lane d => s.outboundAt d
  | _ => false

/-- R95: use-list entry; none is a refusal. -/
def useListEntry (d : Fin 24) (o : OrderId) (s : State) : Option State :=
  if (s.door d).state = .opened ∧ (s.door d).useList.length < Config.useListPlaces then
    some (s.updDoor d fun x => { x with useList := x.useList ++ [o] })
  else none

/-- R95: use-list removal; without effect for an order not in the list. -/
def useListRemoval (d : Fin 24) (o : OrderId) (s : State) : State :=
  s.updDoor d fun x => { x with useList := x.useList.erase o }

/-- The use-list removal for an order's route door, if it has one. -/
def leaveUseList (d : Option (Fin 24)) (o : OrderId) (s : State) : State :=
  match d with
  | some d => useListRemoval d o s
  | none => s

/-- One more of a session count; past 2048 it is a free value (log entry 8). -/
def State.countUp (s : State) (n : Nat) : Nat :=
  if n < Config.sessionCountMax then n + 1 else (Config.sessionCountPast s.freeDraws).1

/-- The free value, if one was drawn for `n`, is used up. -/
def spendDraw (n : Nat) (s : State) : State :=
  if n < Config.sessionCountMax then s else s.withFreeDraws (s.freeDraws + 1)

/-- R96: the admitted or loaded count rises; equal to a nonzero expected count, it puts the door in the DOOR changed set. -/
def countPallet (d : Fin 24) (s : State) : State :=
  match (s.door d).session with
  | none => s
  | some x =>
    let n := s.countUp x.count
    let t := spendDraw x.count (s.updDoor d fun y => { y with session := some { x with count := n } })
    if x.expected ≠ 0 ∧ n = x.expected then setDoorCause d t else t

/-- R29, R96: the admission claim; none is the refusal DOOR_STATE. -/
def admissionClaim (d : Fin 24) (s : State) : Option State :=
  if s.inboundAt d ∧ ((s.door d).state = .sealed ∨ (s.door d).state = .opened) then some (countPallet d s) else none

/-- R96: the drop-through claim; none is the refusal DOOR_SHUT. -/
def dropThroughClaim (d : Fin 24) (s : State) : Option State :=
  if s.outboundAt d ∧ (s.door d).state = .opened then some (countPallet d s) else none

/-- R96: the moved-count notice. -/
def movedCount (d : Fin 24) (s : State) : State :=
  match (s.door d).session with
  | none => s
  | some x =>
    spendDraw x.moved (s.updDoor d fun y => { y with session := some { x with moved := s.countUp x.moved } })

/-! ## The order table (R46, R47, R49) -/

/-- The order an identifier names; none for a stale identifier (R46). -/
def State.order? (s : State) (o : OrderId) : Option Order :=
  let e := s.orderEntry o.index.1
  if o.index.1 < Config.orderEntries ∧ e.gen = o.gen then e.rec? else none

/-- Change the record of an entry in use. -/
def State.updOrder (s : State) (o : OrderId) (f : Order → Order) : State :=
  let e := s.orderEntry o.index.1
  s.setOrderEntry o.index.1 { e with rec? := e.rec?.map f }

/-- The orders in the table with their identifiers, in creation order. -/
def State.orders (s : State) : List (OrderId × Order) :=
  sortBy (fun a b => a.2.seqNo < b.2.seqNo)
    (s.mds.entries.filterMap fun (i, e) => e.rec?.map fun x => ({ index := Fin.ofNat 4096 i, gen := e.gen }, x))

/-- R49: an order queue, head first. -/
def State.queue (s : State) (p : Priority) : List OrderId :=
  (s.orders.filter fun (_, x) => x.state = .queued && x.priority = p).map (·.1)

/-- The orders in a state, in creation order. -/
def State.ordersIn (s : State) (st : OrderState) : List OrderId :=
  (s.orders.filter fun (_, x) => x.state = st).map (·.1)

/-- The lowest-numbered free order entry (R46). -/
def State.freeOrderEntry (s : State) : Option Nat :=
  findUp (fun i => (s.orderEntry i).rec? = none) Config.orderEntries 0

/-- R50: the route door. -/
def routeDoor (origin dest : Place) : Option (Fin 24) :=
  match origin, dest with
  | .atDoor d, _ => some d
  | _, .atDoor e => some e
  | _, _ => none

/-- R60: the action code. -/
def actionFor : Place → ActionCode
  | .atDoor _ => .unload
  | .lane _ => .pickLane
  | .slot _ => .pickSlot
  | _ => .pickFloor

/-- An order becomes FINISHED: finished-at, the outcome, and the tail of the finished list (R48). -/
def finishOrder (o : OrderId) (out : Outcome) (s : State) : State :=
  let t := s.updOrder o fun x => { x with state := .finished, finishedAt := some s.now, outcome := some out }
  t.withMds { t.mds with finished := t.mds.finished ++ [o] }

/-- A terminal becomes IDLE (R55). -/
def termIdle (t : Fin 16) (s : State) : State :=
  s.updTerminal t fun x => { x with state := .idle, idleSince := s.now, bound := none }

/-! ## The dispatch pass (R58 to R60) -/

/-- R58, 2: the origin is takeable. -/
def State.takeable (s : State) (x : Order) : Bool :=
  match x.origin with
  | .lane d => (s.stagingLane d).members.head? = some x.pallet
  | _ => true

/-- R58, 3: DKC would accept the use-list claim. -/
def State.routeOpen (s : State) (x : Order) : Bool :=
  match x.routeDoor with
  | some d => (s.door d).state = .opened && (s.door d).useList.length < Config.useListPlaces
  | none => true

/-- R58: eligible for grant. -/
def State.eligible (s : State) (o : OrderId) : Bool :=
  match s.order? o with
  | some x => s.mode = .run && x.state = .queued && s.takeable x && s.routeOpen x
  | none => false

/-- The GRANT command of an order (R60). -/
def grantCmd (s : State) (o : OrderId) (x : Order) : TermCmd :=
  .grant o ((s.pallet? x.pallet).elim 0 (·.tag)) x.origin x.dest (actionFor x.origin)

/-- R60: grant order `o` to terminal `t`. -/
def grantOrder (o : OrderId) (t : Fin 16) (s : State) : State :=
  match s.order? o with
  | none => s
  | some x =>
    let s1 := match x.routeDoor with
      | some d => (useListEntry d o s).getD s
      | none => s
    let s2 := s1.updOrder o fun y => { y with state := .granted, terminal := some t }
    let s3 := s2.updTerminal t fun y => { y with state := .granted, bound := some o, revokeDue := none }
    placeTerm t (grantCmd s o x) s3

/-- A waiting terminal (R59). -/
def Terminal.waiting (x : Terminal) : Bool := x.state = .idle && !x.dispatchHold

/-- R59: ascending idle-since, then lower number. -/
def idleBefore (s : State) (a b : Fin 16) : Bool :=
  (s.terminal a).idleSince < (s.terminal b).idleSince
    || ((s.terminal a).idleSince = (s.terminal b).idleSince && a < b)

/-- The waiting terminals in the order a pass visits them (R59). -/
def State.waitingTerminals (s : State) : List (Fin 16) :=
  sortBy (idleBefore s) ((List.finRange 16).filter fun t => (s.terminal t).waiting)

/-- R59: one terminal of a pass. -/
def visitTerminal (t : Fin 16) (s : State) : State :=
  match (s.queue .urgent).find? s.eligible with
  | some o => grantOrder o t s
  | none =>
    if (s.terminal t).handsFull then s
    else match (s.queue .normal).find? s.eligible with
      | some o => grantOrder o t s
      | none => s

/-- R59: the condition under which the dispatch retry interval runs. -/
def State.retryWanted (s : State) : Bool :=
  s.mode = .run && ((List.finRange 16).any fun t => (s.terminal t).waiting) && !(s.ordersIn .queued).isEmpty

/-- R59: the retry interval runs on where its condition holds and it runs, starts where it holds and it does not run, and stops
where it fails. Every dispatch pass and every command ends with it (log entry 14). -/
def syncRetry (s : State) : State :=
  s.withMds { s.mds with
    retryDue := if s.retryWanted then some (s.mds.retryDue.getD (s.now + Config.retryInterval)) else none }

/-- R59: a dispatch pass; outside RUN none is made. A pass that grants the last QUEUED order, or the last waiting terminal its
order, stops the retry interval. -/
def dispatchPass (s : State) : State :=
  if s.mode = .run then syncRetry (s.forEach s.waitingTerminals visitTerminal) else s

/-! ## Requeue and withdrawal (R68 to R71) -/

/-- An order back in its queue: QUEUED, with its terminal field cleared (R70). -/
def Order.requeued (x : Order) : Order := { x with state := .queued, terminal := none }

/-- A GRANTED order returns to QUEUED at its creation position (R70). -/
def requeueOrder (o : OrderId) (s : State) : State := s.updOrder o Order.requeued

/-- R70: requeue a GRANTED order and send its terminal REVOKE; any other order is left. -/
def requeueAndRevoke (o : OrderId) (s : State) : State :=
  match s.order? o with
  | some x =>
    if x.state = .granted then
      let s1 := requeueOrder o (leaveUseList x.routeDoor o s)
      match x.terminal with
      | some t => placeTerm t (.revoke o) (termIdle t s1)
      | none => s1
    else s
  | none => s

/-- Which of some orders are in the table, in creation order. -/
def State.inCreationOrder (s : State) (os : List OrderId) : List OrderId :=
  (s.orders.filter fun (o, _) => os.contains o).map (·.1)

/-- R70: the departure notice of a door, with the orders DKC has removed from its use list. At an entry to RETAIN from RUN at which DKC
takes its notice before MDS, these orders are requeued by this rule, so their terminals are sent REVOKE and get no revoke due, which
R73 gives to the orders that MDS itself requeues there (log entry 54). -/
def departureNotice (removed : List OrderId) (s : State) : State :=
  dispatchPass (s.forEach (s.inCreationOrder removed) requeueAndRevoke)

/-- R68: withdraw a QUEUED or GRANTED order; any other is left. -/
def withdrawOrder (out : Outcome) (o : OrderId) (s : State) : State :=
  match s.order? o with
  | none => s
  | some x =>
    if x.state = .queued ∨ x.state = .granted then
      let s1 :=
        if x.state = .granted then
          let u := leaveUseList x.routeDoor o s
          match x.terminal with
          | some t => placeTerm t (.revoke o) (termIdle t u)
          | none => u
        else s
      dispatchPass (finishOrder o out (unbindClaim x.pallet o (releaseClaim o x.dest s1)))
    else s

/-- The pallet carries some hold. -/
def Holds.any (h : Holds) : Bool := h.exposure || h.quality || h.placeUncertain

/-- The pallet a handle names carries some hold, as CTB holds it. -/
def State.held (s : State) (h : Handle) : Bool := (s.pallet? h).any (·.holds.any)

/-- R69: the hold notice for a pallet. -/
def holdNotice (h : Handle) (s : State) : State :=
  match (s.pallet? h).bind (·.liveOrder) with
  | none => s
  | some o =>
    match s.order? o with
    | some x => if s.outbound x.dest then withdrawOrder .withdrawnHeld o s else s
    | none => s

/-- R69: the session notice for a door that received an OUTBOUND session. -/
def sessionNotice (d : Fin 24) (s : State) : State :=
  let hit := s.orders.filter fun (_, x) =>
    (x.state = .queued || x.state = .granted) && (x.dest = .lane d || x.dest = .atDoor d) && s.held x.pallet
  s.forEach (hit.map (·.1)) (withdrawOrder .withdrawnHeld)

/-- R71: the orders naming a door whose trailer has gone are withdrawn. -/
def withdrawTrailerGone (d : Fin 24) (s : State) : State :=
  let hit := s.orders.filter fun (_, x) =>
    (x.state = .queued || x.state = .granted) && (x.origin = .atDoor d || x.dest = .atDoor d)
  s.forEach (hit.map (·.1)) (withdrawOrder .withdrawnTrailerGone)

/-- R71: how many live orders have AT_DOOR(d) as origin or destination. -/
def State.ordersNaming (s : State) (d : Fin 24) : Nat :=
  (s.orders.filter fun (_, x) => x.state ≠ .finished && (x.origin = .atDoor d || x.dest = .atDoor d)).length

/-! ## Terminals lost and heard again (R72), mode changes (R73), warm restart (R76) -/

/-- R72: a terminal is lost. -/
def terminalLost (t : Fin 16) (s : State) : State :=
  match (s.terminal t).state, (s.terminal t).bound with
  | .idle, _ => s.updTerminal t fun x => { x with state := .offline }
  | .granted, some o =>
    let s1 := requeueOrder o (leaveUseList ((s.order? o).bind (·.routeDoor)) o s)
    dispatchPass (s1.updTerminal t fun x => { x with state := .offline, bound := none, revokeDue := some o })
  | .granted, none => s.updTerminal t fun x => { x with state := .offline }
  | .carrying, _ => s.updTerminal t fun x => { x with state := .offline }
  | _, _ => s

/-- R72: a terminal is heard again. A terminal that is not OFFLINE is left as it is. -/
def terminalHeard (t : Fin 16) (s : State) : State :=
  if (s.terminal t).state ≠ .offline then s
  else match (s.terminal t).bound with
    | none =>
      let s1 := termIdle t s
      let s2 := match (s.terminal t).revokeDue with
        | some o => placeTerm t (.revoke o) (s1.updTerminal t fun x => { x with revokeDue := none })
        | none => s1
      dispatchPass s2
    | some o =>
      let s1 := s.updTerminal t fun x => { x with state := .carrying }
      match s.order? o with
      | some x => placeTerm t (.divert o x.dest) s1
      | none => s1

/-- A reachable terminal (R54). -/
def TermState.reachable : TermState → Bool
  | .idle | .granted | .carrying => true
  | _ => false

/-- R73, R76: every reachable terminal becomes OFFLINE; a CARRYING one keeps its bound order. -/
def terminalsOffline (s : State) : State :=
  s.forEach (List.finRange 16) fun t s =>
    s.updTerminal t fun x => if x.state.reachable then { x with state := .offline } else x

/-- R73, R76: a GRANTED order is taken back from a terminal that is not told: revoke due is set to it. -/
def requeueWithRevokeDue (o : OrderId) (s : State) : State :=
  match s.order? o with
  | some x =>
    if x.state = .granted then
      let s1 := requeueOrder o (leaveUseList x.routeDoor o s)
      match x.terminal with
      | some t => (termIdle t s1).updTerminal t fun y => { y with revokeDue := some o }
      | none => s1
    else s
  | none => s

/-- R73: MDS takes the notice of a mode change. -/
def mdsNotice (left entered : Mode) (s : State) : State :=
  let requeued :=
    if left = .run then
      s.forEach (s.ordersIn .granted) (if entered = .retain then requeueWithRevokeDue else requeueAndRevoke)
    else s
  match entered with
  | .retain | .standby => terminalsOffline requeued
  | .run => dispatchPass requeued
  | _ => requeued

/-- R76: one terminal at a warm restart: a GRANTED one gives its order back and owes its REVOKE; idle-since is kept. -/
def terminalRestart (x : Terminal) : Terminal :=
  match x.state with
  | .granted => { x with state := .offline, revokeDue := x.bound, bound := none }
  | .carrying => { x with state := .offline }
  | .idle => { x with state := .offline }
  | _ => x

/-- R76: one order at a warm restart: a GRANTED one is requeued. -/
def orderRestart (x : Order) : Order := if x.state = .granted then x.requeued else x

/-- R76: MDS at a warm restart. The use lists are emptied by DKC (R102). -/
def mdsWarmRestart (s : State) : State :=
  s.withMds { s.mds with
    entries := s.mds.entries.map fun (i, e) => (i, { e with rec? := e.rec?.map orderRestart })
    terminals := s.mds.terminals.map terminalRestart
    retryDue := none }

/-! ## Creation (R51 to R53) -/

/-- A destination is of an outbound place. -/
def State.destOutbound (s : State) : Dest → Bool
  | .place p => s.outbound p
  | .anySlot _ => false

/-- R51, fourth check, and R74, fifth: the destination is valid. -/
def State.destValid (s : State) : Dest → Bool
  | .place p => s.placeValid p
  | .anySlot r => s.kind r ≠ .unused

/-- The destination is AT_DOOR. -/
def Dest.isDoor : Dest → Bool
  | .place (.atDoor _) => true
  | _ => false

/-- The place is AT_DOOR. -/
def Place.isDoor : Place → Bool
  | .atDoor _ => true
  | _ => false

/-- The place is CARRIED. -/
def Place.isCarried : Place → Bool
  | .carried _ => true
  | _ => false

/-- R51, fifth check: the sessions that AT_DOOR places need. -/
def State.moveSessionsOk (s : State) (origin : Place) (dest : Dest) : Bool :=
  (match origin with
    | .atDoor d => s.inboundAt d
    | _ => true) &&
  (match dest with
    | .place (.atDoor e) => s.outboundAt e
    | _ => true)

/-- R52: reserve, bind and fill the order in entry `i`; answers the identifier and the stored destination. -/
def createOrder (i : Nat) (h : Handle) (origin : Place) (dest : Dest) (prio : Priority) (s : State) :
    Except ResultCode (OrderId × Place × State) :=
  let e := s.orderEntry i
  let o : OrderId := { index := Fin.ofNat 4096 i, gen := e.gen }
  match reserveClaim o dest s with
  | .error rc => .error rc
  | .ok (p, s1) =>
    match bindClaim h o s1 with
    | none => .error .busy
    | some s2 =>
      let x : Order :=
        { pallet := h, origin := origin, dest := p, priority := prio, state := .queued, terminal := none,
          routeDoor := routeDoor origin p, createdAt := s.now, finishedAt := none, outcome := none, seqNo := s.mds.nextSeq }
      let s3 := s2.setOrderEntry i { e with rec? := some x }
      .ok (o, p, s3.withMds { s3.mds with nextSeq := s.mds.nextSeq + 1 })

/-- R51, R52: the checks of MOVE after the form of its arguments, and the creation, without the dispatch pass. -/
def tryMove (h : Handle) (dest : Option Dest) (prio : Priority) (s : State) :
    Except ResultCode (OrderId × Place × State) :=
  match dest with
  | none => .error .badArg
  | some dest =>
    match s.pallet? h with
    | none => .error .staleHandle
    | some p =>
      if p.liveOrder ≠ none then .error .busy
      else if p.place.isCarried || decide (dest = .place p.place) || (p.place.isDoor && dest.isDoor) || !s.destValid dest then
        .error .badArg
      else if !s.moveSessionsOk p.place dest then .error .doorState
      else if s.destOutbound dest && p.holds.any then .error .held
      else match s.freeOrderEntry with
        | none => .error .tableFull
        | some i => createOrder i h p.place dest prio s

/-- R53: the elements of a batch in list order. Once one finds no free order entry, it and all after it are TABLE_FULL. -/
def batchElements (a b : Option Dest) (prio : Priority) :
    List (Handle × Bool) → State → List (ResultCode × Option OrderId) × State
  | [], s => ([], s)
  | (h, marked) :: rest, s =>
    match tryMove h (if marked then a else b) prio s with
    | .ok (o, _, t) =>
      let (out, u) := batchElements a b prio rest t
      ((.ok, some o) :: out, u)
    | .error .tableFull => ((.tableFull, none) :: rest.map fun _ => (.tableFull, none), s)
    | .error rc =>
      let (out, u) := batchElements a b prio rest s
      ((rc, none) :: out, u)

/-! ## Redirect (R74) -/

/-- R74, sixth check: the session that an AT_DOOR destination needs. -/
def State.redirectSessionOk (s : State) (x : Order) : Dest → Bool
  | .place (.atDoor e) => s.outboundAt e && (decide (x.state ≠ .carrying) || decide ((s.door e).state ≠ .unsealing))
  | _ => true

/-- R74: the checks, the reserve and the release, and the stored destination; the terminal is not yet told. -/
def tryRedirect (o : OrderId) (x : Order) (dest : Dest) (s : State) : Except ResultCode (Place × State) :=
  if x.state = .finished then .error .orderState
  else if dest = .place x.dest then .error .already
  else if !s.destValid dest || (decide (x.state ≠ .carrying) && decide (dest = .place x.origin))
      || (x.origin.isDoor && dest.isDoor) then .error .badArg
  else if !s.redirectSessionOk x dest then .error .doorState
  else if s.destOutbound dest && s.held x.pallet then .error .held
  else match reserveClaim o dest s with
    | .error rc => .error rc
    | .ok (p, s1) =>
      .ok (p, (releaseClaim o x.dest s1).updOrder o fun y => { y with dest := p, routeDoor := routeDoor x.origin p })

/-- R74: what follows an accepted redirect of an order, by the state it was in. -/
def afterRedirect (o : OrderId) (x : Order) (p : Place) (s : State) : State :=
  let route := routeDoor x.origin p
  match x.state with
  | .queued => dispatchPass s
  | .granted =>
    let s1 := if route = x.routeDoor then some s
      else
        let u := leaveUseList x.routeDoor o s
        match route with
        | some d => useListEntry d o u
        | none => some u
    match s1, x.terminal with
    | some s1, some t => placeTerm t (grantCmd s1 o { x with dest := p }) s1
    | some s1, none => s1
    | none, some t =>
      dispatchPass (placeTerm t (.revoke o) (termIdle t (requeueOrder o (leaveUseList x.routeDoor o s))))
    | none, none => dispatchPass (requeueOrder o (leaveUseList x.routeDoor o s))
  | .carrying =>
    let s1 := if route = x.routeDoor then s else leaveUseList x.routeDoor o s
    match x.terminal with
    | some t => if (s1.terminal t).state.reachable then placeTerm t (.divert o p) s1 else s1
    | none => s1
  | .finished => s

end Sys2Proof.Machine
end

