-- ==== Sys2Proof/Machine/Charges.lean ====
section
/-! DEFINITION. Exposure: holds with their notice (R33, R36), the charge rule (R116), the charge claim (R42), the gap claim (R43), and
the accrual interval with the gap rule (R115, R117). -/

namespace Sys2Proof.Machine

/-- R36: a pallet whose exposure has reached its class budget takes the EXPOSURE hold, with its alarm and the hold notice. -/
def budgetRule (h : Handle) (s : State) : State :=
  match s.pallet? h with
  | none => s
  | some p =>
    if (s.cls p.cls).budget ≤ p.exposure ∧ !p.holds.exposure then
      holdNotice h
        (raiseAlarm .palletExposed (.pallet h) (some (.exposure p.exposure))
          (s.updPallet h fun x => { x with holds := { x.holds with exposure := true } }))
    else s

/-- Add to a pallet's exposure, saturating at 65535, and apply the budget rule where the amount is above 0 (R42, R43). -/
def chargePallet (h : Handle) (amount : Nat) (s : State) : State :=
  if amount = 0 then s
  else budgetRule h (s.updPallet h fun p => { p with exposure := min Config.exposureMax (p.exposure + amount) })

/-- R116: one entry of the room temperature table: the temperature where its status is KNOWN. -/
def tableEntry (x : RoomThermal) : Option Temp :=
  match x.state with
  | .normal | .warm | .excursion => some x.temp
  | .stale | .unwatched => none

/-- R116: the room amount of one room used, in tenths. -/
def roomAmount (c : ClassRec) : Option Temp → Nat
  | some t => (t - c.limit).toNat
  | none => c.excess

/-- R116: the rooms used for a place; a CARRIED pallet uses the origin and destination rooms of its order. -/
def State.roomsUsed (s : State) (p : Pallet) : List (Fin 8) :=
  match p.place with
  | .carried o =>
    match s.order? o with
    | some x => ([s.roomOfPlace x.origin, s.roomOfPlace x.dest].filterMap id)
    | none => []
  | place => (s.roomOfPlace place).toList

/-- R116: the amount charged for an interval of 1 minute: the largest room amount of the rooms used. -/
def State.chargeAmount (s : State) (table : Vector (Option Temp) 8) (p : Pallet) : Nat :=
  ((s.roomsUsed p).map fun r => roomAmount (s.cls p.cls) (table.get r)).foldl max 0

/-- R42: the charge claim, taken whole in ascending entry index. -/
def chargeClaim (table : Vector (Option Temp) 8) (s : State) : State :=
  s.forEach s.liveHandles fun h s =>
    match s.pallet? h with
    | some p => chargePallet h (s.chargeAmount table p) s
    | none => s

/-- R6, R43: the place of the pallet has a charge room. -/
def State.hasChargeRoom (s : State) (p : Pallet) : Bool := !(s.roomsUsed p).isEmpty

/-- R43: the gap claim; the product is formed in full before the sum saturates. -/
def gapClaim (minutes : Nat) (s : State) : State :=
  s.forEach s.liveHandles fun h s =>
    match s.pallet? h with
    | some p => if s.hasChargeRoom p then chargePallet h (minutes * (s.cls p.cls).excess) s else s
    | none => s

/-- R116: the room temperature table as it stands. -/
def State.tempTable (s : State) : Vector (Option Temp) 8 := s.tsu.rooms.map tableEntry

/-- R115: an expiry of the accrual interval. -/
def accrualExpiry (s : State) : State :=
  let t := chargeClaim s.tempTable s
  t.withTsu { t.tsu with lastAccrual := s.now, accrualDue := some (s.now + Config.accrualInterval) }

/-- R117: the gap rule at an entry to RUN, by its formula from every mode, HOLDOVER too: there it counts a minute where an accrual
expiry is due and not yet taken (log entry 46). -/
def gapRule (s : State) : State :=
  if s.now < s.tsu.lastAccrual then s.withTsu { s.tsu with lastAccrual := s.now }
  else
    let minutes := (s.now - s.tsu.lastAccrual) / 60
    if minutes = 0 then s
    else
      let t := gapClaim minutes s
      t.withTsu { t.tsu with lastAccrual := s.now }

/-- R105, R110, R115, R117: TSU takes the notice of a mode change. Every room is evaluated at each of them, entry to HOLDOVER too (log
entry 45); at an entry to RUN the gap claim comes before the evaluations (log entry 40). -/
def tsuNotice (left entered : Mode) (s : State) : State :=
  match entered with
  | .standby | .retain => evaluateAll (modeSilence (stopAccrual s))
  | .checking => evaluateAll (stopAccrual s)
  | .holdover => evaluateAll s
  | .run =>
    let t := gapRule s
    evaluateAll <|
      if left = .holdover then t
      else t.withTsu { t.tsu with accrualDue := some (t.tsu.lastAccrual + Config.accrualInterval) }

/-- R22: the re-evaluation of a class in ascending entry index, with the number of pallets it placed under the EXPOSURE hold. -/
def reevaluateClass (c : Fin 16) (s : State) : Nat × State :=
  let hit := s.livePallets.filter fun (_, p) =>
    p.cls = c && decide ((s.cls c).budget ≤ p.exposure) && !p.holds.exposure
  (hit.length, s.forEach (hit.map (·.1)) budgetRule)

end Sys2Proof.Machine
end

