-- ==== Sys2Proof/Machine/Doors.lean ====
section
/-! DEFINITION. DKC's door state machine: entry to a state, departure from OPEN (R89), FAULT (R90), trailer gone (R91), resolution
(R92), OFFLINE (R93), reconciliation (R94), the report (R80), and warm restart (R102). -/

namespace Sys2Proof.Machine

/-- A door enters a state: state-since, and the DOOR changed set (R77, R101). -/
def doorEnter (d : Fin 24) (st : DoorState) (s : State) : State :=
  setDoorCause d (s.updDoor d fun x => { x with state := st, stateSince := s.now })

/-- A new last outcome (R101). -/
def doorOutcome (d : Fin 24) (out : DoorOutcome) (s : State) : State :=
  setDoorCause d (s.updDoor d fun x => { x with outcome := out })

/-- R89: the seconds since open-since join the session's total; past 32 bits the total is a free value (log entry 9). -/
def addOpenSeconds (total elapsed : Nat) : Nat :=
  if total + elapsed ≤ Config.clockMax then total + elapsed else (Config.openSecondsPast (total + elapsed)).toNat

/-- R89: what a departure from OPEN does to the door record. -/
def Door.departed (now : Time) (x : Door) : Door :=
  { x with
    useList := []
    session := x.session.map fun y => { y with openSeconds := addOpenSeconds y.openSeconds (now - x.openSince.getD now) }
    openSince := none
    openWaitDue := none }

/-- A door leaves its state for `st`. If it was OPEN it departs from OPEN (R89): the door takes its new state first, and the
departure notice is given if `notify` says so (not at a warm restart, R102). -/
def doorLeaveTo (d : Fin 24) (st : DoorState) (notify : Bool) (s : State) : State :=
  let was := s.door d
  let t := doorEnter d st s
  if was.state = .opened then
    let u := clearAlarm .doorOpenLong (.door d) (t.updDoor d (Door.departed s.now))
    if notify then departureNotice was.useList u else u
  else t

/-- R99: re-evaluate the hold of a door's room where the door counts as closed. -/
def reevaluateIfClosed (d : Fin 24) (s : State) : State :=
  if (s.door d).notClosed then s else reevaluateHold (s.door d).room s

/-- R90: entry to FAULT, its effects in the order of the rule's list: the departure, the state, STOP, the raises. R99: a door that
counts as closed then has its room's hold re-evaluated (log entry 29), after the raises (log entry 44). -/
def enterFault (d : Fin 24) (code : FaultCode) (s : State) : State :=
  let t := doorLeaveTo d .fault true (s.updDoor d fun x => { x with fault := some code })
  let u := raiseAlarm .doorFault (.door d) (some (.faultCode code)) (placeDoor d .stop t)
  let v := if code = .trailerLost then raiseAlarm .trailerLost (.door d) none u else u
  reevaluateIfClosed d v

/-- R91: the trailer has gone. -/
def trailerGone (d : Fin 24) (s : State) : State :=
  let (n, t) := retireDoorSet d (withdrawTrailerGone d s)
  let u := t.updDoor d fun x => { x with session := none }
  clearAlarm .sealFailed (.door d) (doorOutcome d (.leftOnTrailer n) (doorEnter d .vacant u))

/-- R82: the seal is confirmed, or a resolution finds it so (R92): sealed-at is set if absent. -/
def confirmSeal (d : Fin 24) (s : State) : State :=
  clearAlarm .sealFailed (.door d) (s.updDoor d fun x =>
    { x with session := x.session.map fun y => { y with sealedAt := some (y.sealedAt.getD s.now) } })

/-- The table of R92: resolve a door from its last report. -/
def resolveDoor (d : Fin 24) (s : State) : State :=
  let x := s.door d
  if !x.last.trailer then trailerGone d s
  else if x.last.sealOk && x.session.isSome then confirmSeal d (doorEnter d .sealed s)
  else
    let t := doorEnter d .arrived s
    if x.last.sealOk then placeDoor d .deflate t else t

/-- R92: leaving FAULT by DOOR_CLEAR_FAULT. -/
def clearDoorFault (d : Fin 24) (s : State) : State :=
  let t := resolveDoor d (s.updDoor d fun x => { x with fault := none })
  let u := clearAlarm .trailerLost (.door d) (clearAlarm .doorFault (.door d) t)
  let v := if (u.door d).state = .vacant then u else doorOutcome d .faultCleared u
  reevaluateIfClosed d v

/-- R84: the opening is complete, or a resumed OPEN is as if it were (R94): open-since, the open-time wait, and the door-open
notice, which starts a dispatch pass. -/
def enterOpen (d : Fin 24) (s : State) : State :=
  dispatchPass ((doorEnter d .opened s).updDoor d fun x =>
    { x with openSince := some s.now, openWaitDue := some (s.now + x.openLimit) })

/-- R93: entry to OFFLINE with the remembered state. A door already OFFLINE is left. -/
def doorOffline (d : Fin 24) (s : State) : State :=
  let was := s.door d
  if was.state = .offline then s
  else placeDoor d .stop (doorLeaveTo d .offline true (s.updDoor d fun x => { x with remembered := some was.state }))

/-- R88: the unseal is complete. -/
def unsealComplete (d : Fin 24) (s : State) : State :=
  let t := withdrawTrailerGone d s
  let (n, u) := if (s.door d).session.any (·.direction = .outbound) then retireDoorSet d t else (0, t)
  doorOutcome d (.released n) (doorEnter d .arrived (u.updDoor d fun x => { x with session := none }))

/-- R80: the checks on a report stored for a door in a state other than OFFLINE and FAULT, in order; the first that applies
decides. -/
def doorReportEffect (d : Fin 24) (s : State) : State :=
  let x := s.door d
  let r := x.last
  let underTrailer : Bool := x.state = .sealing || x.state = .sealed || x.state = .opening || x.state = .opened
    || x.state = .closing || x.state = .unsealing
  let needsSeal : Bool := x.state = .sealed || x.state = .opening || x.state = .opened || x.state = .closing
  let needsClosed : Bool := x.state = .vacant || x.state = .arrived || x.state = .sealing || x.state = .sealed
    || x.state = .unsealing
  if r.stationFault ≠ 0#8 then enterFault d .stationFault s
  else if !r.trailer && x.state = .arrived then trailerGone d s
  else if !r.trailer && underTrailer then enterFault d .trailerLost s
  else if r.sealOk && x.state = .sealing then confirmSeal d (doorOutcome d .sealOk (doorEnter d .sealed s))
  else if !r.sealOk && x.state = .unsealing then unsealComplete d s
  else if !r.sealOk && needsSeal then enterFault d .sealLost s
  else if r.leaf ≠ .closed && needsClosed then enterFault d .uncommandedLeaf s
  else if r.leaf ≠ .opened && x.state = .opened then enterFault d .uncommandedLeaf s
  else if r.leaf = .opened && x.state = .opening then enterOpen d (doorOutcome d .opened s)
  else if r.leaf = .closed && x.state = .closing then
    reevaluateHold x.room
      ((doorOutcome d .closed (doorEnter d .sealed s)).updDoor d fun y => { y with closeCompleted := s.now })
  else if r.trailer && x.state = .vacant then doorEnter d .arrived s
  else s

/-- R94: the report agrees with the remembered state. -/
def reconcileAgrees (remembered : DoorState) (r : DoorReport) : Bool :=
  match remembered with
  | .opened => r.leaf = .opened && r.sealOk && r.trailer && r.stationFault = 0#8
  | .sealed => r.leaf = .closed && r.sealOk && r.trailer && r.stationFault = 0#8
  | .fault => true
  | _ => r.leaf = .closed && r.stationFault = 0#8

/-- R94: reconcile an OFFLINE door from its remembered state and the report just stored. A transient state is resolved by the table of
R92 alone, its last outcome kept where it resolves to SEALED or ARRIVED (log entry 51). A door resumed in FAULT is not an entry to FAULT
of R90: no STOP is placed (log entry 52). -/
def reconcileDoor (d : Fin 24) (s : State) : State :=
  let x := s.door d
  let remembered := x.remembered.getD .vacant
  let t := s.updDoor d fun y => { y with remembered := none }
  if !reconcileAgrees remembered x.last then enterFault d .reconcile t
  else
    let u := match remembered with
      | .opened => enterOpen d t
      | .sealed => doorEnter d .sealed t
      | .arrived =>
        let v := doorEnter d .arrived t
        doorReportEffect d (if x.last.sealOk then placeDoor d .deflate v else v)
      | .vacant => doorReportEffect d (doorEnter d .vacant t)
      | .fault => doorEnter d .fault t
      | _ => resolveDoor d t
    reevaluateIfClosed d u

/-- R80: a door station report, taken whole. -/
def takeDoorReport (d : Fin 24) (r : DoorReport) (s : State) : State :=
  let t := s.updDoor d fun x => { x with last := r }
  match (s.door d).state with
  | .offline => reconcileDoor d t
  | .fault => if (s.door d).notClosed = (t.door d).notClosed then t else reevaluateHold (s.door d).room t
  | _ => doorReportEffect d t

/-- R93: DKC takes the notice of a mode change: in-service doors become OFFLINE at HOLDOVER, RETAIN and STANDBY. -/
def dkcNotice (entered : Mode) (s : State) : State :=
  match entered with
  | .standby | .holdover | .retain =>
    s.forEach (List.finRange 24) fun d s => if (s.door d).inService then doorOffline d s else s
  | _ => s

/-- R102: a door in service that is not OFFLINE becomes so at a warm restart. -/
def Door.restarts (x : Door) : Bool := x.inService && x.state ≠ .offline

/-- R102: the door record after a warm restart: OFFLINE with its remembered state, state-since kept; an OPEN door departs from OPEN. -/
def Door.restarted (now : Time) (x : Door) : Door :=
  if x.restarts then
    let y := { x with state := .offline, remembered := some x.state }
    if x.state = .opened then y.departed now else y
  else x

/-- R102: one door at a warm restart, without a departure notice; a door in service has STOP placed. -/
def doorRestart (d : Fin 24) (s : State) : State :=
  let was := s.door d
  let t := s.updDoor d (Door.restarted s.now)
  let u := if was.restarts then setDoorCause d t else t
  let v := if was.restarts && was.state = .opened then clearAlarm .doorOpenLong (.door d) u else u
  if was.inService then placeDoor d .stop v else v

/-- R102: DKC at a warm restart. -/
def dkcWarmRestart (s : State) : State := s.forEach (List.finRange 24) doorRestart

end Sys2Proof.Machine
end

