-- ==== Sys2Proof/Machine/Reports.lean ====
section
/-! DEFINITION. MDS takes the terminal reports (R62 to R67), and each owning block takes its loss notice, its heard-again notice and
its reports (R163 to R165). -/

namespace Sys2Proof.Machine

/-- The end of every command: the retry interval and the MOVE cause follow the state it leaves (R59, R177, log entry 14). -/
def settle (s : State) : State := syncMove (syncRetry s)

/-- REFUSE with a reason (R61). -/
def refuse (t : Fin 16) (why : RefuseReason) : State → State := placeTerm t (.refuse why)

/-- ACCEPT for a kind of report that creates no order (R61). -/
def accept (t : Fin 16) (kind : TermReportKind) : State → State := placeTerm t (.accept kind none)

/-- The order bound to a terminal that is in state `st`. -/
def State.boundOrder (s : State) (t : Fin 16) (st : TermState) : Option OrderId :=
  if (s.terminal t).state = st then (s.terminal t).bound else none

/-- R62: a PICKED report. -/
def takePicked (t : Fin 16) (tag : Tag) (place : Nat) (s : State) : State :=
  match s.boundOrder t .granted with
  | none => refuse t .state s
  | some o =>
    match s.order? o with
    | none => refuse t .pickMismatch s
    | some x =>
      if (s.pallet? x.pallet).map (·.tag) ≠ some tag ∨ place ≠ x.origin.code then refuse t .pickMismatch s
      else match vacateClaim x.pallet x.origin s with
        | none => refuse t .pickMismatch s
        | some s1 =>
          let s2 := (pickClaim x.pallet o s1).updOrder o fun y => { y with state := .carrying }
          accept t .picked (s2.updTerminal t fun y => { y with state := .carrying })

/-- R63, third check: the drop-through claim of an AT_DOOR destination. -/
def dropThrough (p : Place) (s : State) : Option State :=
  match p with
  | .atDoor e => dropThroughClaim e s
  | _ => some s

/-- R64, 2: the moved-count notice of an AT_DOOR origin. -/
def movedNotice (origin : Place) (s : State) : State :=
  match origin with
  | .atDoor d => movedCount d s
  | _ => s

/-- R64, 3: the distinct FREEZER and BLAST rooms among the origin room and the destination room, the origin room first (log
entry 35). -/
def State.portalRooms (s : State) (origin dest : Place) : List (Fin 8) :=
  ([s.roomOfPlace origin, s.roomOfPlace dest].filterMap id).dedup.filter fun r => s.kind r = .freezer || s.kind r = .blast

/-- R63, R64: what an accepted drop does once the place is committed. The two notices of one drop go out in the order of
`portalRooms` (log entry 35). -/
def completeDrop (t : Fin 16) (o : OrderId) (x : Order) (s : State) : State :=
  let s1 := finishOrder o .done (dropClaim x.pallet o x.dest s)
  let s2 := accept t .dropped (termIdle t s1)
  let s3 := movedNotice x.origin (leaveUseList x.routeDoor o s2)
  dispatchPass (s3.forEach (s3.portalRooms x.origin x.dest) portalPassage)

/-- R63: a DROPPED report. -/
def takeDropped (t : Fin 16) (place : Nat) (s : State) : State :=
  match s.boundOrder t .carrying with
  | none => refuse t .state s
  | some o =>
    match s.order? o with
    | none => refuse t .dropMismatch s
    | some x =>
      if place ≠ x.dest.code then refuse t .dropMismatch s
      else if s.outbound x.dest && s.held x.pallet then refuse t .held s
      else match dropThrough x.dest s with
        | none => refuse t .doorShut s
        | some s1 =>
          match commitClaim o x.pallet x.dest s1 with
          | none => refuse t .dropMismatch s
          | some s2 => completeDrop t o x s2

/-- R65: the steps an ABANDON report and a MOVE_CANCEL with a room share: occupy, release, abandon claim, use list, FINISHED. -/
def abandonOrder (o : OrderId) (x : Order) (room : Nat) (out : Outcome) (s : State) : Option State :=
  match readFin room 8 with
  | none => none
  | some r =>
    match occupyClaim x.pallet (.floor r) s with
    | .error _ => none
    | .ok s1 =>
      some (finishOrder o out (leaveUseList x.routeDoor o (abandonClaim x.pallet o r (releaseClaim o x.dest s1))))

/-- R65: an ABANDON report. -/
def takeAbandon (t : Fin 16) (room : Nat) (s : State) : State :=
  match s.boundOrder t .carrying with
  | none => refuse t .state s
  | some o =>
    match s.order? o with
    | none => refuse t .place s
    | some x =>
      match abandonOrder o x room .abandonedTerminal s with
      | none => refuse t .place s
      | some s1 => dispatchPass (accept t .abandon (termIdle t s1))

/-- R66, sixth check: the pallet is at a lane head or on a floor. -/
def State.submittable (s : State) (h : Handle) (p : Place) : Bool :=
  match p with
  | .lane d => (s.stagingLane d).members.head? = some h
  | .floor _ => true
  | _ => false

/-- R66: the checks of a SUBMIT and the creation, without the dispatch pass. -/
def trySubmit (t : Fin 16) (tag : Tag) (s : State) : Except RefuseReason (OrderId × State) :=
  if (s.terminal t).state ≠ .idle then .error .state
  else if s.moc.strap ≠ .terminal then .error .notEnabled
  else if s.mode ≠ .run then .error .mode
  else match s.findTag tag with
    | none => .error .notFound
    | some h =>
      match s.pallet? h with
      | none => .error .notFound
      | some p =>
        if p.liveOrder ≠ none then .error .busy
        else if !s.submittable h p.place then .error .place
        else match s.freeOrderEntry with
          | none => .error .tableFull
          | some i =>
            match createOrder i h p.place (.anySlot (s.cls p.cls).preferred) .normal s with
            | .error _ => .error .destFull
            | .ok (o, _, s1) => .ok (o, s1)

/-- R66: a SUBMIT report. -/
def takeSubmit (t : Fin 16) (tag : Tag) (s : State) : State :=
  match trySubmit t tag s with
  | .error why => refuse t why s
  | .ok (o, s1) => dispatchPass (placeTerm t (.accept .submit (some o)) s1)

/-- R67: a READY report. -/
def takeReady (t : Fin 16) (handsFull : Bool) (s : State) : State :=
  let x := s.terminal t
  if x.state.reachable then
    let s1 := s.updTerminal t fun y => { y with handsFull := handsFull }
    if x.handsFull && !handsFull && decide (x.state = .idle) then dispatchPass s1 else s1
  else s

/-- R67: a terminal report, in the state the terminal has after it is heard again. -/
def takeTerminalReport (t : Fin 16) (rep : Report) (s : State) : State :=
  let s1 := terminalHeard t s
  match rep with
  | .picked tag place => takePicked t tag place s1
  | .dropped place => takeDropped t place s1
  | .abandon room => takeAbandon t room s1
  | .submit tag => takeSubmit t tag s1
  | .ready h => takeReady t h s1
  | _ => s

/-- R163: the owning block takes a loss notice. -/
def ownerLost : StationId → State → State
  | .door d => doorOffline d
  | .hub r => hubLost r
  | .evap e => controllerLost e
  | .term t => terminalLost t

/-- R164: the owning block takes a heard-again notice. For a door or a hub the answer itself does all (R94, R105). -/
def ownerHeard : StationId → State → State
  | .door _ => id
  | .hub _ => id
  | .evap e => controllerHeard e
  | .term t => terminalHeard t

/-- R165: the owning block takes a report; `fresh` says that no heard-again notice came with it. -/
def takeReport (st : StationId) (fresh : Bool) (rep : Report) (s : State) : State :=
  match st, rep with
  | .door d, .door r => takeDoorReport d r s
  | .hub r, .probes p0 p1 p2 p3 => takeProbeReport r p0 p1 p2 p3 s
  | .evap e, .controller c => takeControllerReport e fresh c s
  | .term t, rep => takeTerminalReport t rep s
  | _, _ => s

end Sys2Proof.Machine
end

