-- ==== Sys2Proof/Machine/Plant.lean ====
section
/-! DEFINITION. LPL: rounds and polls (R160), delivery (R162), loss (R163), rehearing (R164), the mode notice (R167), the roll call
(R169) and warm restart (R170). -/

namespace Sys2Proof.Machine

/-- The lanes in the order of R158. -/
def allLanes : List Lane := [.door, .probe, .evap, .term]

/-- R159: the poll period in seconds of the part's own time base. -/
def pollPeriod : Lane → Nat
  | .door => 1
  | .probe => 5
  | .evap => 5
  | .term => 1

/-- R158: the configured stations of a lane in ascending address. -/
def State.configuredStations (s : State) (l : Lane) : List StationId := (laneStations l).filter s.configured

/-- R160, R162: the poll of a station: its sequence number after the increment (log entry 47), and the slot's command if it holds
one. -/
def sendPoll (l : Lane) (st : StationId) (rest : List StationId) (s : State) : State :=
  let x := s.station st
  (s.updStation st fun y => { y with seqNo := y.seqNo + 1, slotSent := y.slot.isSome }).updLane l fun y =>
    { y with position := some st, todo := rest, lastPoll := pollBytes st (x.seqNo + 1) x.slot }

/-- R160: the next poll of the round or roll call, or its end. -/
def nextPoll (l : Lane) (s : State) : State :=
  match (s.laneRec l).todo with
  | st :: rest => sendPoll l st rest s
  | [] => s.updLane l fun y => { y with position := none }

/-- R158, R160: a round or a roll call begins with the configured stations as they stand. -/
def beginRound (l : Lane) (s : State) : State :=
  nextPoll l (s.updLane l fun y => { y with todo := s.configuredStations l })

/-- R160: the round goes on when a poll has ended; a round that fell due meanwhile begins at the end of the present one. -/
def pollEnded (l : Lane) (s : State) : State :=
  let t := nextPoll l s
  let x := t.laneRec l
  if x.position.isNone && decide (x.polling = .polled) && decide (0 < x.owed) then
    beginRound l (t.updLane l fun y => { y with owed := y.owed - 1 })
  else t

/-- R160: the round timer of a lane expires. -/
def roundExpiry (l : Lane) (s : State) : State :=
  let t := s.updLane l fun y => { y with roundDue := y.roundDue + pollPeriod l }
  if (s.laneRec l).position.isSome then t.updLane l fun y => { y with owed := y.owed + 1 } else beginRound l t

/-- The poll in flight on a lane, with the report of the bytes received if they are a good answer to it (R160). -/
def State.judged (s : State) (l : Lane) (received : List Byte) : Option (StationId × Option Report) :=
  (s.laneRec l).position.map fun st => (st, judgeAnswer st (s.station st).seqNo received)

/-- R162, R163: a good answer takes the command its poll carried out of the slot and sets the missed count to 0. -/
def takeDelivery (st : StationId) (s : State) : State :=
  s.updStation st fun x => { x with slot := if x.slotSent then none else x.slot, slotSent := false, missed := 0 }

/-- R164: the station is heard again: HEARD, the clear claim, the owner's notice. -/
def heardAgain (st : StationId) (s : State) : State :=
  ownerHeard st (clearAlarm (lossAlarm st).1 (lossAlarm st).2 (s.updStation st fun x => { x with link := .heard }))

/-- R160, R164, R165: a good answer, then the lane's next poll. -/
def goodAnswer (l : Lane) (st : StationId) (rep : Report) (s : State) : State :=
  let fresh := decide ((s.station st).link = .heard)
  let t := takeDelivery st s
  let u := if fresh then t else heardAgain st t
  pollEnded l (takeReport st fresh rep u)

/-- R163, R169: the station is declared lost: LOST with a missed count of 3, the loss notice, and the loss alarm outside HOLDOVER
and RETAIN. The owner's alarm claims come before the loss alarm (log entry 48). -/
def declareLost (st : StationId) (s : State) : State :=
  let t := ownerLost st (s.updStation st fun x => { x with link := .lost, missed := 3 })
  if s.mode = .holdover ∨ s.mode = .retain then t else raiseAlarm (lossAlarm st).1 (lossAlarm st).2 none t

/-- R163, R169: a missed poll of a station. -/
def missPoll (l : Lane) (st : StationId) (s : State) : State :=
  let n := min 3 ((s.station st).missed + 1)
  let t := s.updStation st fun x => { x with missed := n, slotSent := false }
  if (s.station st).link ≠ .lost ∧ ((s.laneRec l).polling = .rollCall ∨ n = 3) then declareLost st t else t

/-- R163: a missed poll, then the lane's next poll. -/
def missedAnswer (l : Lane) (st : StationId) (s : State) : State := pollEnded l (missPoll l st s)

/-- R167: what a stop of its lane does to a station. Where the stop abandons a roll call, the station keeps its link state (R169, R191;
log entry 13). -/
def Station.stopped (rollCall : Bool) (x : Station) : Station :=
  { x with missed := 0, link := if x.link = .heard && !rollCall then .unconfirmed else x.link, slotSent := false }

/-- R167: a lane that is polled, or in the roll call (R169), is stopped. -/
def stopLane (l : Lane) (s : State) : State :=
  if (s.laneRec l).polling = .stopped then s
  else
    (s.updLane l fun y => { y with polling := .stopped, roundDue := 0, owed := 0, position := none, todo := [] }).forEach
      (laneStations l) fun st t => t.updStation st (Station.stopped (decide ((s.laneRec l).polling = .rollCall)))

/-- R167: polling of a lane that is not polled starts: its first round begins at once. -/
def startLane (l : Lane) (s : State) : State :=
  if (s.laneRec l).polling = .polled then s
  else beginRound l (s.updLane l fun y =>
    { y with polling := .polled, roundDue := s.timeBase + pollPeriod l, owed := 0, position := none, todo := [] })

/-- R167: LPL takes the notice of a mode change. -/
def lplNotice (entered : Mode) (s : State) : State :=
  match entered with
  | .standby | .retain => s.forEach allLanes stopLane
  | .checking => s
  | .run => s.forEach allLanes startLane
  | .holdover => startLane .term (startLane .probe (stopLane .evap (stopLane .door s)))

/-- R169: the roll call of one lane starts. -/
def startRollCall (l : Lane) (s : State) : State :=
  beginRound l (s.updLane l fun y => { y with polling := .rollCall, owed := 0, position := none, todo := [] })

/-- R169: the roll call of a lane has ended. -/
def State.rollCallEnded (s : State) (l : Lane) : Bool :=
  decide ((s.laneRec l).polling = .rollCall) && (s.laneRec l).position.isNone && (s.laneRec l).todo.isEmpty

/-- R169: how many stations of a lane ended the roll call LOST. -/
def State.rollCallCount (s : State) (l : Lane) : Nat :=
  ((s.configuredStations l).filter fun st => (s.station st).link = .lost).length

/-- R170: one station at a warm restart. -/
def Station.restarted (x : Station) : Station :=
  { x with
    link := if x.link = .heard then .unconfirmed else x.link
    missed := 0, slot := none, slotSent := false }

/-- R170: LPL at a warm restart. -/
def lplWarmRestart (s : State) : State :=
  s.withLpl { lanes := Vector.replicate 4 {}, stations := s.lpl.stations.map Station.restarted }

end Sys2Proof.Machine
end

