-- ==== Sys2Proof/Machine/Modes.lean ====
section
/-! DEFINITION. MOC: mode changes with their notices (R184), the supply lines (R193 to R195), the consistency checks (R190), the end of
the roll call (R191), cold start (R186) and warm restart (R187). -/

namespace Sys2Proof.Machine

/-- A notice order with every block once: the blocks named, each at its first place, then the others. R184 leaves the order open;
it is an operand of the command that changes the mode (log entry 4). -/
def completeOrder (order : List Block) : List Block :=
  let named := order.reverse.dedup.reverse
  named ++ Block.all.filter fun b => !named.contains b

/-- R184: one block takes the notice of a mode change. -/
def blockNotice (left entered : Mode) : Block → State → State
  | .mds => mdsNotice left entered
  | .dkc => dkcNotice entered
  | .tsu => tsuNotice left entered
  | .dfc => dfcNotice entered
  | .lpl => lplNotice entered

/-- MOC's own record at a change of mode. CHECKING alone has checks to make, and leaving it cancels the roll call limit (R190, R191,
R193). -/
def Moc.enter (m : Moc) (entered : Mode) : Moc :=
  { m with mode := entered, modeSince := m.clock, rollCallDue := none, checksDue := decide (entered = .checking) }

/-- R195: at every entry to RUN the clear claim for SUPPLY_LOSS. -/
def clearSupplyLoss (entered : Mode) (s : State) : State :=
  if entered = .run then clearAlarm .supplyLoss .site s else s

/-- R184: a change of mode: mode-since, the SUPPLY cause, and the notices in the given order. -/
def enterMode (entered : Mode) (order : List Block) (s : State) : State :=
  let t := clearSupplyLoss entered (setCause .supply (s.withMoc (s.moc.enter entered)))
  t.forEach (completeOrder order) (blockNotice s.mode entered)

/-- A change of the self-check result sets SUPPLY (R184). -/
def setSelfCheck (r : SelfCheck) (s : State) : State :=
  if s.moc.selfCheck = r then s else setCause .supply (s.withMoc { s.moc with selfCheck := r })

/-- SUPPLY_LOSS with subject SITE 0. -/
def raiseSupplyLoss : State → State := raiseAlarm .supplyLoss .site none

/-- From CHECKING, a supply change makes the self-check result SUPPLY (R193, R194). -/
def selfCheckSupply (s : State) : State := if s.mode = .checking then setSelfCheck .supply s else s

/-- R194: the mode remembered at an entry to RETAIN. -/
def Mode.remembered : Mode → Mode
  | .checking => .standby
  | m => m

/-- R194: the entry to RETAIN, from any mode other than RETAIN. -/
def enterRetain (order : List Block) (s : State) : State :=
  if s.mode = .retain then s
  else
    let t := raiseSupplyLoss (selfCheckSupply s)
    enterMode .retain order (t.withMoc { t.moc with remembered := some s.mode.remembered })

/-- MOC records a supply line and sets SUPPLY (R184). -/
def recordLine (f : Moc → Moc) (s : State) : State := setCause .supply (s.withMoc (f s.moc))

/-- R193: SUPPLY_FAIL becomes active. -/
def takeSupplyFail (order : List Block) (s : State) : State :=
  let t := recordLine (fun m => { m with supplyFail := true }) s
  if s.moc.batteryLow then enterRetain order t
  else match s.mode with
    | .run => enterMode .holdover order (raiseSupplyLoss t)
    | .checking => enterMode .standby order (raiseSupplyLoss (selfCheckSupply t))
    | .standby => raiseSupplyLoss t
    | _ => t

/-- R194: BATTERY_LOW becomes active. -/
def takeBatteryLow (order : List Block) (s : State) : State :=
  let t := recordLine (fun m => { m with batteryLow := true }) s
  if s.moc.supplyFail then enterRetain order t else t

/-- R195: SUPPLY_FAIL becomes inactive. -/
def takeSupplyReturn (order : List Block) (s : State) : State :=
  let t := recordLine (fun m => { m with supplyFail := false }) s
  let forget (u : State) : State := u.withMoc { u.moc with remembered := none }
  match s.mode with
  | .holdover => enterMode .run order t
  | .retain =>
    if s.moc.remembered = some .run ∨ s.moc.remembered = some .holdover then enterMode .run order (forget t)
    else enterMode .standby order (forget t)
  | _ => t

/-! ## The self-check (R190, R191) -/

/-- R190, check 4: how many configured evaporators are bound to a room. -/
def State.evapsBound (s : State) (r : Fin 8) : Nat := ((List.finRange 12).filter fun e => (s.evap e).boundTo r).length

/-- A room of kind FREEZER or BLAST. -/
def RoomKind.cold : RoomKind → Bool
  | .freezer | .blast => true
  | _ => false

/-- R190: the six checks, by number. -/
def State.checkPasses (s : State) : Nat → Bool
  | 1 => (List.finRange 8).any fun r => s.kind r ≠ .unused
  | 2 => (List.finRange 8).all fun r => s.firstSlot r ≤ s.pdr.ending.get r
  | 3 => (List.finRange 24).all fun d => !(s.door d).inService || decide (s.kind (s.door d).room = .dock)
  | 4 =>
    ((List.finRange 12).all fun e => !(s.evap e).cfg.configured || decide (s.kind (s.evap e).cfg.room ≠ .unused))
      && (List.finRange 8).all fun r => s.evapsBound r ≤ 3
  | 5 =>
    (List.finRange 16).all fun c =>
      (s.cls c).budget = 0 || ((s.kind (s.cls c).preferred).cold && 1 ≤ s.slotCount (s.cls c).preferred)
  | 6 => 1 ≤ s.dfc.allowance && s.dfc.allowance ≤ 4
  | _ => true

/-- R190: the number of the first check that fails. -/
def State.firstFailure (s : State) : Option Nat := [1, 2, 3, 4, 5, 6].find? fun n => !s.checkPasses n

/-- R190: the consistency checks as one event: CONFIG_INVALID and STANDBY, or the start of the roll call with its limit. -/
def makeChecks (order : List Block) (s : State) : State :=
  match s.firstFailure with
  | some n => enterMode .standby order (setSelfCheck (.configInvalid n) s)
  | none =>
    (s.withMoc { s.moc with checksDue := false, rollCallDue := some (s.now + Config.rollCallLimit) }).forEach
      allLanes startRollCall

/-- R169: every lane's roll call has ended. -/
def State.rollCallComplete (s : State) : Bool := allLanes.all s.rollCallEnded

/-- R191: the roll call counts, one for each lane in the order of R184. -/
def State.lostCounts (s : State) : Vector Nat 4 :=
  #v[s.rollCallCount .door, s.rollCallCount .probe, s.rollCallCount .evap, s.rollCallCount .term]

/-- R191: the completion. -/
def rollCallPassed (order : List Block) (s : State) : State :=
  enterMode .run order (setSelfCheck .passed (s.withMoc { s.moc with rollCounts := s.lostCounts }))

/-- R191: the expiry of the roll call limit. -/
def rollCallTimeout (order : List Block) (s : State) : State :=
  enterMode .standby order (setSelfCheck .rollCallTimeout s)

/-! ## Resets (R186, R187) -/

/-- R186: the supply lines sampled when a reset ends; a line found active is taken as becoming active, BATTERY_LOW first. -/
def sampleLines (supplyFail batteryLow : Bool) (order : List Block) (s : State) : State :=
  let t := if batteryLow then takeBatteryLow order s else s
  if supplyFail then takeSupplyFail order t else t

/-- R183: LKP at a warm restart. -/
def lkpWarmRestart (s : State) : State :=
  s.withLkp { Lkp.coldStart with reasons := { warmRestart := true } }

/-- R187, R197: MOC at a warm restart; the lines are not yet sampled. -/
def mocWarmRestart (s : State) : State :=
  s.withMoc { s.moc with
    mode := .standby, modeSince := s.now, remembered := none
    selfCheck := if s.moc.selfCheck = .inProgress then .abandoned else s.moc.selfCheck
    supplyFail := false, batteryLow := false, rollCallDue := none, checksDue := false }

/-- R184 at a warm restart: a self-check that it abandons is a change of the self-check result, and a line that was active and is found
inactive is a change of a supply line; each sets SUPPLY (log entry 17). A line found active is taken by `sampleLines`. -/
def restartChanges (supplyFail batteryLow : Bool) (before s : State) : State :=
  if before.moc.selfCheck = .inProgress ∨ (before.moc.supplyFail && !supplyFail) ∨ (before.moc.batteryLow && !batteryLow) then
    setCause .supply s
  else s

/-- R187: the blocks at a warm restart, LKP and LPL first (R170, R183); DFC goes before TSU, whose derivations then find no
evaporator in HEAT or DRIP. No rule orders the blocks (log entry 38). -/
def warmRestartBlocks (s : State) : State :=
  tsuWarmRestart (dfcWarmRestart (dkcWarmRestart (mdsWarmRestart (mocWarmRestart (lplWarmRestart (lkpWarmRestart s))))))

end Sys2Proof.Machine
end

