-- ==== Sys2Proof/Machine/Link.lean ====
section
/-! DEFINITION. LKP: exchanges (R171, R172), availability (R175), the hand-off of a request to its owner (R174), and the shape of a
reply. -/

namespace Sys2Proof.Machine

/-! ## Exchanges (R171, R172) -/

/-- The pending unmasked causes as one byte (R171, R199). -/
def CauseFlags.shown (pending masks : CauseFlags) : CauseFlags :=
  { supply := pending.supply && !masks.supply, alarm := pending.alarm && !masks.alarm, door := pending.door && !masks.door,
    defrost := pending.defrost && !masks.defrost, move := pending.move && !masks.move, room := pending.room && !masks.room,
    link := pending.link && !masks.link }

/-- R171: what an exchange shifts out: the answer at the head, or an idle frame. -/
def Lkp.outFrame (l : Lkp) : List Byte :=
  match l.answers.head? with
  | some a => a.bytes
  | none => idleBytes (l.pendingCauses.shown l.masks).byte l.urgent.length l.normal.length

/-- R171: an exchange begins. -/
def beginExchange (s : State) : State :=
  s.withLkp { s.lkp with
    exchange := some { ready := s.ready, out := s.lkp.outFrame, answer := !s.lkp.answers.isEmpty } }

/-- R171, 11.2: what an exchange of some bytes shifts out: its frame, cut short if the exchange ends early, then 00h fill bytes for
as long as the host goes on clocking. -/
def Exchange.shiftedOut (x : Exchange) (bytes : Nat) : List Byte :=
  x.out.take bytes ++ List.replicate (bytes - x.out.length) 0x00#8

/-- R171: the delivery at the end of an exchange, which is then over; what it shifted out is recorded (log entry 43). -/
def deliver (x : Exchange) (bytes : Nat) (s : State) : State :=
  s.withLkp { s.lkp with
    exchange := none
    shifted := x.shiftedOut bytes
    answers := if x.answer && decide (x.out.length ≤ bytes) then s.lkp.answers.tail else s.lkp.answers }

/-- An answer joins the tail of the answer queue. -/
def pushAnswer (f : RequestFrame) (rc : ResultCode) (results : List Byte) (s : State) : State :=
  s.withLkp { s.lkp with answers := s.lkp.answers ++ [{ tag := f.tag, code := f.code, result := rc, results := results }] }

/-- R172, the last three rows: a good frame is queued, answered QUEUE_FULL, or discarded. -/
def queueFrame (urgent : Bool) (f : RequestFrame) (s : State) : State :=
  let room := if urgent then s.lkp.urgent.length < Config.urgentPlaces else s.lkp.normal.length < Config.normalPlaces
  if room then
    s.withLkp (if urgent then { s.lkp with urgent := s.lkp.urgent ++ [f] } else { s.lkp with normal := s.lkp.normal ++ [f] })
  else if s.ready then pushAnswer f .queueFull [] s
  else discardFrame true s

/-- R172: the received bytes are judged. -/
def judgeReceived (ready : Bool) (received : List Byte) (s : State) : State :=
  match judgeFrame received with
  | .fill => s
  | .bad => if ready then discardFrame false s else discardFrame true s
  | .request urgent f => if ready then queueFrame urgent f s else discardFrame true s

/-- R171, R172: the end of an exchange as one event; it lasted as many bytes as were received. -/
def endExchange (received : List Byte) (s : State) : State :=
  match s.lkp.exchange with
  | none => s
  | some x => judgeReceived x.ready received (deliver x received.length s)

/-! ## Availability (R175) -/

/-- The rows of the table of R175. -/
inductive Group where
  | configure | thermal | always | run | wide | start | stop
deriving DecidableEq, Repr

/-- The group of a request code; none for a code no rule defines (11.3). -/
def groupOf (code : Byte) : Option Group :=
  let n := code.toNat
  if n = 0x04 ∨ n = 0x10 ∨ n = 0x11 ∨ n = 0x20 ∨ n = 0x37 ∨ n = 0x40 ∨ n = 0x50 ∨ n = 0x60 then some .configure
  else if n = 0x51 then some .thermal
  else if n = 0x05 then some .start
  else if n = 0x06 then some .stop
  else if n = 0x21 ∨ n = 0x30 ∨ n = 0x31 ∨ n = 0x36 ∨ n = 0x41 ∨ n = 0x42 ∨ n = 0x43 ∨ n = 0x44 ∨ n = 0x46 ∨ n = 0x61
      ∨ n = 0x62 ∨ n = 0x63 then some .run
  else if n = 0x15 ∨ n = 0x25 ∨ n = 0x26 ∨ n = 0x27 ∨ n = 0x28 ∨ n = 0x32 ∨ n = 0x33 ∨ n = 0x35 then some .wide
  else if n = 0x01 ∨ n = 0x02 ∨ n = 0x03 ∨ n = 0x07 ∨ n = 0x08 ∨ n = 0x12 ∨ n = 0x13 ∨ n = 0x14 ∨ n = 0x16 ∨ n = 0x22
      ∨ n = 0x23 ∨ n = 0x24 ∨ n = 0x34 ∨ n = 0x38 ∨ n = 0x45 ∨ n = 0x52 ∨ n = 0x53 ∨ n = 0x64 ∨ n = 0x70 ∨ n = 0x71
      ∨ n = 0x72 ∨ n = 0x73 then some .always
  else none

/-- R175: the answer a group gets in a mode that does not allow it; none where it is available. -/
def Group.refusal : Group → Mode → Option ResultCode
  | .configure, .standby => none
  | .configure, .checking | .configure, .run => some .mode
  | .configure, .holdover | .configure, .retain => some .supply
  | .thermal, .standby | .thermal, .run => none
  | .thermal, .checking => some .mode
  | .thermal, .holdover | .thermal, .retain => some .supply
  | .always, _ => none
  | .run, .standby | .run, .checking => some .mode
  | .run, .run => none
  | .run, .holdover | .run, .retain => some .supply
  | .wide, .standby | .wide, .run | .wide, .holdover => none
  | .wide, .checking => some .mode
  | .wide, .retain => some .supply
  | .start, .standby => none
  | .start, .checking | .start, .run => some .mode
  | .start, .holdover | .start, .retain => some .supply
  | .stop, .standby | .stop, .checking => some .mode
  | .stop, .run => none
  | .stop, .holdover | .stop, .retain => some .supply

/-! ## The hand-off (R174) -/

/-- What an owner answers: a refusal, which changes no record and has no results, or OK or ACCEPTED with results and the owner's
changes. -/
abbrev Reply := Except ResultCode (ResultCode × List Byte × State)

/-- OK with results. -/
def done (results : List Byte) (s : State) : Reply := .ok (.ok, results, s)

/-- ACCEPTED: an operation that takes time has started. -/
def started (s : State) : Reply := .ok (.accepted, [], s)

/-- R174: the request at the head, the urgent queue first, and the state without it. -/
def State.takeHead (s : State) : Option (RequestFrame × State) :=
  match s.lkp.urgent with
  | f :: rest => some (f, s.withLkp { s.lkp with urgent := rest })
  | [] =>
    match s.lkp.normal with
    | f :: rest => some (f, s.withLkp { s.lkp with normal := rest })
    | [] => none

/-- The owner takes the request whole and its answer joins the answer queue in the same step (R174). -/
def answerWith (f : RequestFrame) (reply : Reply) (s : State) : State :=
  match reply with
  | .error rc => pushAnswer f rc [] s
  | .ok (rc, results, t) => settle (pushAnswer f rc results t)

/-- R174, steps 2 and 3: the request is decided by the mode, then by its owner. -/
def decideRequest (h : List Byte → State → Reply) (f : RequestFrame) (s : State) : State :=
  match (groupOf f.code).bind fun g => g.refusal s.mode with
  | some rc => pushAnswer f rc [] s
  | none => answerWith f (h f.args s) s

/-- The hand-off of a request with code `code`, where it is at the head and the answer queue has a place (R174); else nothing
happens (log entry 2). -/
def handOff (code : Byte) (h : List Byte → State → Reply) (s : State) : State :=
  match s.takeHead with
  | some (f, t) => if s.ready ∧ f.code = code then decideRequest h f t else s
  | none => s

/-- R174, step 1: the hand-off of a request whose code no rule defines. -/
def handOffUnknown (s : State) : State :=
  match s.takeHead with
  | some (f, t) => if s.ready ∧ groupOf f.code = none then pushAnswer f .unknownRequest [] t else s
  | none => s

/-- A request that takes no arguments; any other length is BAD_ARG (R200). -/
def noArgs (h : State → Reply) (args : List Byte) (s : State) : Reply :=
  if args.isEmpty then h s else .error .badArg

/-- A 16-bit number of two argument bytes. -/
def num (hi lo : Byte) : Nat := beNat [hi, lo]

/-- The 16-bit numbers of a list of byte pairs; none for an odd length. -/
def readNums : List Byte → Option (List Nat)
  | [] => some []
  | hi :: lo :: rest => (readNums rest).map fun ns => num hi lo :: ns
  | [_] => none

/-- A request whose only argument is a number below `n`; any other length or number is BAD_ARG. -/
def oneFin (n : Nat) (h : Fin n → State → Reply) (args : List Byte) (s : State) : Reply :=
  match args with
  | [hi, lo] =>
    match readFin (num hi lo) n with
    | some i => h i s
    | none => .error .badArg
  | _ => .error .badArg

/-- An optional field of an argument list: a presence flag and a number, which is 0 when absent (R200, R201). The outer none is a
bad form, an absent field with a number other than 0 among them (log entry 50). -/
def readOptional (flag : Byte) (value : Nat) : Option (Option Nat) :=
  match readFlag flag with
  | some true => some (some value)
  | some false => if value = 0 then some none else none
  | none => none

end Sys2Proof.Machine
end

