-- ==== Sys2Proof/Machine/AlarmRequests.lean ====
section
/-! DEFINITION. The requests to ALT: ALARM_LIST, ALARM_ACK, ALARM_READ, ALARM_OVERFLOW_CLEAR (R153 to R156). -/

namespace Sys2Proof.Machine

/-- R154: the results of ALARM_LIST from a start position. -/
def Alt.listResults (a : Alt) (start : Nat) : List Byte :=
  let shown := (a.records.zipIdx.drop start).take 8
  num1 a.records.length ++ num1 a.unlisted ++ listOf (fun x => alarmBytes x.2 x.1) shown

/-- R154. The start position takes two bytes (log entry 5), though 11.5 returns a record's position in one. -/
def alarmListReply (args : List Byte) (s : State) : Reply :=
  match args with
  | [p1, p0] => if 63 < num p1 p0 then .error .badArg else done (s.alt.listResults (num p1 p0)) s
  | _ => .error .badArg

/-- R153: the acknowledgement of one pair. -/
def ackPair (k : AlarmKind) (sub : Subject) (s : State) : Reply :=
  match s.alt.records.find? (·.isFor k sub) with
  | none => .error .notFound
  | some r =>
    if r.state = .acked then .error .already
    else
      done [] (s.withAlt { s.alt with
        records := s.alt.records.filterMap fun r => if r.isFor k sub then ackRecord r else some r })

/-- R153: ALL, with the numbers acknowledged and retired. -/
def ackAll (s : State) : Reply :=
  let acked := (s.alt.records.filter (·.state = .raised)).length
  let retired := (s.alt.records.filter (·.state = .cleared)).length
  done (num2 acked ++ num2 retired) (s.withAlt { s.alt with records := s.alt.records.filterMap ackRecord })

/-- R153, 11.5: ALL is kind 00h with the subject bytes 0. -/
def alarmAckReply (args : List Byte) (s : State) : Reply :=
  match args with
  | [k, t, n1, n0] =>
    if k = 0#8 ∧ t = 0#8 ∧ num n1 n0 = 0 then ackAll s
    else match readPair k t (num n1 n0) with
      | some (kind, sub) => ackPair kind sub s
      | none => .error .badArg
  | _ => .error .badArg

/-- R155: the record for a pair with its position. -/
def readAlarm (k : AlarmKind) (sub : Subject) (s : State) : Reply :=
  match s.alt.position k sub, s.alt.records.find? (·.isFor k sub) with
  | some i, some r => done (alarmBytes i r) s
  | _, _ => .error .notFound

/-- R155. -/
def alarmReadReply (args : List Byte) (s : State) : Reply :=
  match args with
  | [k, t, n1, n0] =>
    match readPair k t (num n1 n0) with
    | some (kind, sub) => readAlarm kind sub s
    | none => .error .badArg
  | _ => .error .badArg

/-- R156. -/
def clearOverflow (s : State) : Reply := done (num2 s.alt.unlisted) (s.withAlt { s.alt with unlisted := 0 })

/-! ## The rows -/

/-- ALARM_LIST (70h). -/
def execAlarmList (s : State) : Host.Outcome State Fault Refusal := .next (handOff 0x70 alarmListReply s)

/-- ALARM_ACK (71h). -/
def execAlarmAck (s : State) : Host.Outcome State Fault Refusal := .next (handOff 0x71 alarmAckReply s)

/-- ALARM_READ (72h). -/
def execAlarmRead (s : State) : Host.Outcome State Fault Refusal := .next (handOff 0x72 alarmReadReply s)

/-- ALARM_OVERFLOW_CLEAR (73h). -/
def execAlarmOverflowClear (s : State) : Host.Outcome State Fault Refusal := .next (handOff 0x73 (noArgs clearOverflow) s)

end Sys2Proof.Machine
end

