-- ==== Sys2Proof/Machine/CustodyRequests.lean ====
section
/-! DEFINITION. The requests to CTB: CLASS_SET, ADMIT, FIND_TAG, PALLET_READ, CENSUS, HOLD_SET, HOLD_CLEAR, RETIRE, PLACE_CORRECT (R21
to R41). -/

namespace Sys2Proof.Machine

/-- R21: the class is named by some live record. -/
def State.classUsed (s : State) (c : Fin 16) : Bool := s.livePallets.any fun (_, p) => p.cls = c

/-- Write a class record. -/
def setClass (c : Fin 16) (x : ClassRec) (s : State) : State :=
  s.withCtb { s.ctb with classes := upd s.ctb.classes c fun _ => x }

/-- R21: the ranges of a class record and its preferred room's kind. -/
def State.classOk (s : State) (x : ClassRec) : Bool :=
  decide (-500 ≤ x.limit) && decide (x.limit ≤ 500) && decide (x.excess ≤ 500)
    && (decide (x.budget = 0) || (s.kind x.preferred).cold)

/-- R21, R22: an accepted CLASS_SET, with the number of pallets placed under the EXPOSURE hold. -/
def storeClass (c : Fin 16) (x : ClassRec) (s : State) : Reply :=
  if x.budget = 0 then
    if s.classUsed c then .error .occupied else done (num2 0) (setClass c {} s)
  else
    let (n, t) := reevaluateClass c (setClass c x s)
    done (num2 n) t

/-- R21. -/
def classSetReply (args : List Byte) (s : State) : Reply :=
  match args with
  | [c1, c0, l1, l0, b1, b0, x1, x0, p1, p0] =>
    match readFin (num c1 c0) 16, readFin (num p1 p0) 8 with
    | some c, some room =>
      let x : ClassRec := { limit := readTemp l1 l0, budget := num b1 b0, excess := num x1 x0, preferred := room }
      if s.classOk x then storeClass c x s else .error .badArg
    | _, _ => .error .badArg
  | _ => .error .badArg

/-- A 48-bit tag of six bytes. -/
def readTag (bs : List Byte) : Tag := BitVec.ofNat 48 (beNat bs)

/-- R29, R30: the checks of ADMIT after the ranges, and the admission. -/
def tryAdmit (tag : Tag) (c : Fin 16) (d : Fin 24) (s : State) : Reply :=
  if (s.cls c).budget = 0 then .error .badArg
  else if (s.findTag tag).isSome then .error .duplicateTag
  else match s.freeEntry with
    | none => .error .tableFull
    | some i =>
      match admissionClaim d s with
      | none => .error .doorState
      | some t =>
        let (h, u) := admitPallet i tag c d t
        done (handle2 h) u

/-- R29. -/
def admitReply (args : List Byte) (s : State) : Reply :=
  match args with
  | [t5, t4, t3, t2, t1, t0, c1, c0, d1, d0] =>
    match readFin (num c1 c0) 16, readFin (num d1 d0) 24 with
    | some c, some d => tryAdmit (readTag [t5, t4, t3, t2, t1, t0]) c d s
    | _, _ => .error .badArg
  | _ => .error .badArg

/-- R28: the lowest live tag at or above a tag. -/
def State.nextTag (s : State) (t : Tag) : Option (Tag × Handle) := s.tagIndex.find? fun x => t ≤ x.1

/-- R28. -/
def findTagReply (args : List Byte) (s : State) : Reply :=
  match args with
  | [t5, t4, t3, t2, t1, t0, mode] =>
    let tag := readTag [t5, t4, t3, t2, t1, t0]
    if mode = 0#8 then
      match s.findTag tag with
      | some h => done (handle2 h) s
      | none => .error .notFound
    else if mode = 1#8 then
      match s.nextTag tag with
      | some (t, h) => done (tag6 t ++ handle2 h) s
      | none => .error .notFound
    else .error .badArg
  | _ => .error .badArg

/-- R31: the results of PALLET_READ. -/
def State.palletResults (s : State) (p : Pallet) : List Byte :=
  tag6 p.tag ++ num2 p.cls.1 ++ place2 p.place ++ [p.holds.byte] ++ num2 p.exposure ++ time4 p.admittedAt
    ++ num2 p.admittingDoor.1 ++ optOrder p.liveOrder ++ num2 (s.cls p.cls).budget

/-- R24: a request whose only argument is a handle. -/
def oneHandle (k : Handle → Pallet → State → Reply) (args : List Byte) (s : State) : Reply :=
  match args with
  | [hi, lo] =>
    let h := readHandle (num hi lo)
    match s.pallet? h with
    | some p => k h p s
    | none => .error .staleHandle
  | _ => .error .badArg

/-- R203: one element of CENSUS. -/
def State.censusElement (s : State) (h : Handle) : List Byte :=
  match s.pallet? h with
  | some p => [p.holds.byte] ++ place2 p.place ++ num2 p.exposure ++ optOrder p.liveOrder
  | none => [0x80#8] ++ be 2 0 ++ be 2 0 ++ be 2 0xFFFF

/-- R32. -/
def censusReply (args : List Byte) (s : State) : Reply :=
  match args with
  | n :: rest =>
    match readNums rest with
    | some ns =>
      if 1 ≤ ns.length ∧ ns.length ≤ 32 ∧ n.toNat = ns.length then
        done (listOf s.censusElement (ns.map readHandle)) s
      else .error .badArg
    | none => .error .badArg
  | [] => .error .badArg

/-- R34: QUALITY is set, and the hold notice is sent because the hold passes from absent to present (R33). -/
def setQuality (h : Handle) (s : State) : State :=
  holdNotice h (s.updPallet h fun p => { p with holds := { p.holds with quality := true } })

/-- R34. -/
def holdSetReply (args : List Byte) (s : State) : Reply :=
  match args with
  | [hi, lo, hold] =>
    let h := readHandle (num hi lo)
    match s.pallet? h with
    | none => .error .staleHandle
    | some p =>
      if hold ≠ 2#8 then .error .badArg
      else if p.holds.quality then .error .already
      else done [{ p.holds with quality := true }.byte] (setQuality h s)
  | _ => .error .badArg

/-- R35. -/
def holdClearReply (args : List Byte) (s : State) : Reply :=
  match args with
  | [hi, lo, hold] =>
    let h := readHandle (num hi lo)
    match s.pallet? h with
    | none => .error .staleHandle
    | some p =>
      if hold = 2#8 then
        if p.holds.quality then done [] (s.updPallet h fun p => { p with holds := { p.holds with quality := false } })
        else .error .already
      else if hold = 1#8 ∨ hold = 3#8 then .error .locked
      else .error .badArg
  | _ => .error .badArg

/-- R37. -/
def retire (h : Handle) (p : Pallet) (s : State) : Reply :=
  if p.liveOrder.isSome then .error .busy else done [] (retirePallet h s)

/-- R41, second check: SLOT, LANE or FLOOR, of a defined form (R202). -/
def readCorrection (n : Nat) : Option Place :=
  match readDest n with
  | some (.place (.slot k)) => some (.slot k)
  | some (.place (.lane d)) => some (.lane d)
  | some (.place (.floor r)) => some (.floor r)
  | _ => none

/-- R41: the occupy of the new place and the vacate of the old one, where they differ. -/
def correctPlace (h : Handle) (p : Pallet) (new : Place) (s : State) : Except ResultCode State :=
  if new = p.place then .ok s
  else match occupyClaim h new s with
    | .error rc => .error rc
    | .ok t => .ok (((vacateClaim h p.place t).getD t).updPallet h fun x => { x with place := new })

/-- R41: an accepted correction clears PLACE_UNCERTAIN and its alarm. -/
def confirmPlace (h : Handle) (s : State) : State :=
  clearAlarm .placeUncertain (.pallet h)
    (s.updPallet h fun x => { x with holds := { x.holds with placeUncertain := false } })

/-- R41. -/
def placeCorrectReply (args : List Byte) (s : State) : Reply :=
  match args with
  | [hi, lo, p1, p0] =>
    let h := readHandle (num hi lo)
    match s.pallet? h with
    | none => .error .staleHandle
    | some p =>
      match readCorrection (num p1 p0) with
      | none => .error .badArg
      | some new =>
        if p.liveOrder.isSome then .error .busy
        else if !s.placeValid new then .error .badArg
        else match correctPlace h p new s with
          | .error rc => .error rc
          | .ok t => done (place2 new ++ [{ p.holds with placeUncertain := false }.byte]) (confirmPlace h t)
  | _ => .error .badArg

/-! ## The rows -/

/-- CLASS_SET (20h). -/
def execClassSet (s : State) : Host.Outcome State Fault Refusal := .next (handOff 0x20 classSetReply s)

/-- ADMIT (21h). -/
def execAdmit (s : State) : Host.Outcome State Fault Refusal := .next (handOff 0x21 admitReply s)

/-- FIND_TAG (22h). -/
def execFindTag (s : State) : Host.Outcome State Fault Refusal := .next (handOff 0x22 findTagReply s)

/-- PALLET_READ (23h). -/
def execPalletRead (s : State) : Host.Outcome State Fault Refusal :=
  .next (handOff 0x23 (oneHandle fun _ p s => done (s.palletResults p) s) s)

/-- CENSUS (24h). -/
def execCensus (s : State) : Host.Outcome State Fault Refusal := .next (handOff 0x24 censusReply s)

/-- HOLD_SET (25h). -/
def execHoldSet (s : State) : Host.Outcome State Fault Refusal := .next (handOff 0x25 holdSetReply s)

/-- HOLD_CLEAR (26h). -/
def execHoldClear (s : State) : Host.Outcome State Fault Refusal := .next (handOff 0x26 holdClearReply s)

/-- RETIRE (27h). -/
def execRetire (s : State) : Host.Outcome State Fault Refusal := .next (handOff 0x27 (oneHandle retire) s)

/-- PLACE_CORRECT (28h). -/
def execPlaceCorrect (s : State) : Host.Outcome State Fault Refusal := .next (handOff 0x28 placeCorrectReply s)

end Sys2Proof.Machine
end

