-- ==== Sys2Proof/Machine/DefrostRequests.lean ====
section
/-! DEFINITION. The requests to DFC and the expiries of DFC's deadlines: EVAP_SET, DEFROST_REQUEST, DEFROST_ABORT, EVAP_RELEASE,
EVAP_READ (R122, R127, R140, R141, R143), the frost interval (R125), the deferral (R130) and the phase deadlines (R134 to R137). -/

namespace Sys2Proof.Machine

/-- R121, R122: the ranges of the settings. -/
def EvapConfig.inRange (c : EvapConfig) : Bool :=
  decide (30 ≤ c.pumpdown) && decide (c.pumpdown ≤ 300) && decide (300 ≤ c.maxHeat) && decide (c.maxHeat ≤ 3600)
    && decide (-500 ≤ c.termination) && decide (c.termination ≤ 500) && decide (60 ≤ c.drip) && decide (c.drip ≤ 900)
    && decide (60 ≤ c.refreeze) && decide (c.refreeze ≤ 900) && decide (-500 ≤ c.fanStart) && decide (c.fanStart ≤ 500)
    && decide (5 ≤ c.deferral) && decide (c.deferral ≤ 120) && decide (c.baseRate ≤ 1000) && decide (c.doorRate ≤ 1000)
    && decide (c.portalRate ≤ 1000) && decide (c.fanStart < c.termination)

/-- R122: the record after its settings are stored: a change of the configured flag gives the working values of a cold start. -/
def Evap.configure (x : Evap) (c : EvapConfig) : Evap :=
  if x.cfg.configured = c.configured then { x with cfg := c } else { cfg := c, lost := c.configured }

/-- R122, R168: an accepted EVAP_SET. -/
def setEvap (e : Fin 12) (c : EvapConfig) (s : State) : State :=
  configuredChanged (.evap e) (s.evap e).cfg.configured c.configured (s.updEvap e fun x => x.configure c)

/-- R122: the settings of an EVAP_SET after the evaporator number. -/
def readEvapConfig (args : List Byte) : Option EvapConfig :=
  match args with
  | [flag, r1, r0, p1, p0, h1, h0, t1, t0, d1, d0, z1, z0, f1, f0, w1, w0, b1, b0, o1, o0, q1, q0] =>
    match readFlag flag, readFin (num r1 r0) 8 with
    | some configured, some room =>
      some
        { configured := configured, room := room, pumpdown := num p1 p0, maxHeat := num h1 h0, termination := readTemp t1 t0
          drip := num d1 d0, refreeze := num z1 z0, fanStart := readTemp f1 f0, deferral := num w1 w0, baseRate := num b1 b0
          doorRate := num o1 o0, portalRate := num q1 q0 }
    | _, _ => none
  | _ => none

/-- R122. -/
def evapSetReply (args : List Byte) (s : State) : Reply :=
  match args with
  | e1 :: e0 :: rest =>
    match readFin (num e1 e0) 12, readEvapConfig rest with
    | some e, some c =>
      let x := s.evap e
      if !c.inRange then .error .badArg
      else if (decide (x.cfg.configured ≠ c.configured) || decide (x.cfg.room ≠ c.room)) && decide (x.phase ≠ .idle) then
        .error .busy
      else done [] (setEvap e c s)
    | _, _ => .error .badArg
  | _ => .error .badArg

/-- R121: a request that acts on the phase of an evaporator that is not configured is BAD_ARG. -/
def onConfigured (k : Fin 12 → State → Reply) (e : Fin 12) (s : State) : Reply :=
  if (s.evap e).cfg.configured then k e s else .error .badArg

/-- R127. -/
def requestDefrost (e : Fin 12) (s : State) : Reply :=
  if (s.evap e).phase = .idle then started (raiseDemand e s) else .error .already

/-- R141: DEMANDED and ALLOTTED become IDLE with the frost load kept. -/
def abortToIdle (e : Fin 12) (s : State) : State :=
  (enterPhase e .idle none s).updEvap e fun x => { x with forced := false, demandSince := none }

/-- R141. -/
def abortDefrost (e : Fin 12) (s : State) : Reply :=
  match (s.evap e).phase with
  | .demanded => done [] (clearAlarm .defrostDeferred (.evap e) (abortToIdle e s))
  | .allotted =>
    let t := (releaseAllowance e (abortToIdle e s)).updEvap e fun x => { x with holdConfirmed := false }
    done [] (allowancePass (clearAlarm .defrostDeferred (.evap e) t))
  | .pumpdown | .heat => done [] (clearAlarm .defrostDeferred (.evap e) (enterDrip e s))
  | _ => .error .already

/-- R140: what an accepted EVAP_RELEASE does before its allowance pass. -/
def releaseFault (e : Fin 12) (s : State) : State :=
  let t := releaseAllowance e (enterPhase e .idle none s)
  let u := clearAlarm .defrostDeferred (.evap e) (clearAlarm .defrostStuck (.evap e) t)
  placeEvap e .run (u.updEvap e fun x =>
    { x with forced := false, demandSince := none, holdConfirmed := false, heatTerminated := false })

/-- R140. -/
def releaseEvap (e : Fin 12) (s : State) : Reply :=
  if (s.evap e).phase = .fault then done [] (allowancePass (releaseFault e s)) else .error .evapState

/-- R121: the twelve settings. -/
def EvapConfig.bytes (c : EvapConfig) : List Byte :=
  flag1 c.configured ++ num2 c.room.1 ++ num2 c.pumpdown ++ num2 c.maxHeat ++ temp2 c.termination ++ num2 c.drip
    ++ num2 c.refreeze ++ temp2 c.fanStart ++ num2 c.deferral ++ num2 c.baseRate ++ num2 c.doorRate ++ num2 c.portalRate

/-- The last report of an evaporator (R201, R204). -/
def CtlReport.bytes (r : CtlReport) : List Byte := [r.phase.byte] ++ temp2 r.coil ++ flag1 r.heaterOn ++ flag1 r.extension

/-- R121: the settings and the working part. -/
def Evap.results (x : Evap) : List Byte :=
  x.cfg.bytes ++ [x.phase.byte] ++ num2 x.frost ++ flag1 x.forced ++ optTime x.demandSince ++ time4 x.phaseSince
    ++ optTime x.deadline ++ num2 x.extensions ++ flag1 x.allowanceHeld ++ flag1 x.holdConfirmed ++ flag1 x.heatTerminated
    ++ flag1 x.lost ++ x.last.bytes

/-- R143: the position in the waiting list, 1 to 12. -/
def State.waitingPosition (s : State) (e : Fin 12) : Option Nat := (s.waitingList.findIdx? (· = e)).map (· + 1)

/-- R143: the results of EVAP_READ. The demand's age goes out as an optional time does, a presence flag and four bytes (log entry
5). -/
def State.evapResults (s : State) (e : Fin 12) : List Byte :=
  (s.evap e).results ++ num2 s.dfc.allowance ++ num2 s.allowanceUsed ++ optField 2 ((s.waitingPosition e).map num2)
    ++ optTime ((s.evap e).demandSince.map fun t => s.now - t)

/-! ## Deadlines -/

/-- A phase deadline has come in its phase (R131). -/
def State.phaseDue (s : State) (e : Fin 12) (p : Phase) : Bool :=
  decide ((s.evap e).phase = p) && (s.evap e).deadline.any fun t => decide (t ≤ s.now)

/-- R130: the deferral deadline has come, in DEMANDED or ALLOTTED. -/
def State.deferralOver (s : State) (e : Fin 12) : Bool :=
  ((s.evap e).phase = .demanded || (s.evap e).phase = .allotted) && (s.evap e).deferralDue.any fun t => decide (t ≤ s.now)

/-- R130: the expiry of the deferral deadline, with the allowance pass in DEMANDED. -/
def deferralExpiry (e : Fin 12) (s : State) : State :=
  if (s.evap e).phase = .demanded then allowancePass (deferralExpires e s) else deferralExpires e s

/-- R135: the maximum heat deadline expires: DRIP, and DEFROST_OVERRUN with the last report's coil temperature. -/
def maxHeatExpiry (e : Fin 12) (s : State) : State :=
  raiseAlarm .defrostOverrun (.evap e) (some (.temp (s.evap e).last.coil)) (enterDrip e s)

/-- R125: the frost interval has expired. -/
def State.frostOver (s : State) : Bool := s.dfc.frostDue.any fun t => decide (t ≤ s.now)

/-- R125: an expiry of the frost interval; the next one is 60 s after now, also where this one is taken late (log entry 42). -/
def frostTick (s : State) : State :=
  frostExpiry (s.withDfc { s.dfc with frostDue := some (s.now + Config.frostInterval) })

/-! ## The rows -/

/-- EVAP_SET (60h). -/
def execEvapSet (s : State) : Host.Outcome State Fault Refusal := .next (handOff 0x60 evapSetReply s)

/-- DEFROST_REQUEST (61h). -/
def execDefrostRequest (s : State) : Host.Outcome State Fault Refusal :=
  .next (handOff 0x61 (oneFin 12 (onConfigured requestDefrost)) s)

/-- DEFROST_ABORT (62h). -/
def execDefrostAbort (s : State) : Host.Outcome State Fault Refusal :=
  .next (handOff 0x62 (oneFin 12 (onConfigured abortDefrost)) s)

/-- EVAP_RELEASE (63h). -/
def execEvapRelease (s : State) : Host.Outcome State Fault Refusal :=
  .next (handOff 0x63 (oneFin 12 (onConfigured releaseEvap)) s)

/-- EVAP_READ (64h). -/
def execEvapRead (s : State) : Host.Outcome State Fault Refusal :=
  .next (handOff 0x64 (oneFin 12 fun e s => done (s.evapResults e) s) s)

/-- FROST_INTERVAL_EXPIRY (R125). -/
def execFrostIntervalExpiry (s : State) : Host.Outcome State Fault Refusal :=
  .next (if s.frostOver then settle (frostTick s) else s)

/-- DEFERRAL_EXPIRY (R130). -/
def execDeferralExpiry (e : Fin 12) (s : State) : Host.Outcome State Fault Refusal :=
  .next (if s.deferralOver e then settle (deferralExpiry e s) else s)

/-- PUMPDOWN_DEADLINE_EXPIRY (R134). -/
def execPumpdownDeadlineExpiry (e : Fin 12) (s : State) : Host.Outcome State Fault Refusal :=
  .next (if s.phaseDue e .pumpdown then settle (enterHeat e s) else s)

/-- MAX_HEAT_EXPIRY (R135). -/
def execMaxHeatExpiry (e : Fin 12) (s : State) : Host.Outcome State Fault Refusal :=
  .next (if s.phaseDue e .heat then settle (maxHeatExpiry e s) else s)

/-- DRIP_DEADLINE_EXPIRY (R136). -/
def execDripDeadlineExpiry (e : Fin 12) (s : State) : Host.Outcome State Fault Refusal :=
  .next (if s.phaseDue e .drip then settle (endDrip e s) else s)

/-- REFREEZE_DEADLINE_EXPIRY (R137). -/
def execRefreezeDeadlineExpiry (e : Fin 12) (s : State) : Host.Outcome State Fault Refusal :=
  .next (if s.phaseDue e .refreeze then settle (endRefreeze e s) else s)

end Sys2Proof.Machine
end

