-- ==== Sys2Proof/Machine/DoorRequests.lean ====
section
/-! DEFINITION. The requests to DKC and the expiries of DKC's limits: DOOR_SET, DOOR_SEAL, DOOR_OPEN, DOOR_CLOSE, DOOR_RELEASE,
DOOR_READ, DOOR_CLEAR_FAULT (R79 to R101), and the seal, leaf travel and unseal limits with the open-time wait (R82, R84, R88). -/

namespace Sys2Proof.Machine

/-! ## DOOR_SET (R79) -/

/-- R79, fourth check: VACANT, ARRIVED without a session, or OFFLINE with one of those remembered. -/
def Door.removable (x : Door) : Bool :=
  let bare (st : DoorState) : Bool := st = .vacant || (st = .arrived && x.session.isNone)
  bare x.state || (x.state = .offline && x.remembered.any bare)

/-- R79, R101: the in-service flag passes from no to yes, or from yes to no. A door that becomes OFFLINE here has its slot emptied
(R168) and no STOP placed after it (log entry 37). -/
def setInService (d : Fin 24) (inService : Bool) (s : State) : State :=
  let was := s.door d
  if was.inService = inService then s
  else
    let t := s.updDoor d fun x =>
      if inService then { x with inService := true, remembered := some .vacant, last := {} }
      else { x with inService := false, remembered := none }
    let state : DoorState := if inService then .offline else .vacant
    let u := if was.state = state then t else doorEnter d state t
    configuredChanged (.door d) was.inService inService u

/-- R79, R99: the fields are stored; after a change of room the holds of both rooms are re-evaluated. -/
def setDoor (d : Fin 24) (room : Fin 8) (limit : Nat) (inService : Bool) (s : State) : State :=
  let old := (s.door d).room
  let t := setInService d inService (s.updDoor d fun x => { x with room := room, openLimit := limit })
  if old = room then t else reevaluateHold room (reevaluateHold old t)

/-- R79: the checks of DOOR_SET after the ranges; none where it is accepted. -/
def State.doorSetRefusal (s : State) (d : Fin 24) (room : Fin 8) (inService : Bool) : Option ResultCode :=
  let x := s.door d
  let moves := decide (x.room ≠ room)
  let clears := x.inService && !inService
  if (moves || clears) && decide (0 < (s.stagingLane d).load) then some .occupied
  else if moves && x.notClosed then some .doorState
  else if clears && !x.removable then some .doorState
  else none

/-- R79. -/
def doorSetReply (args : List Byte) (s : State) : Reply :=
  match args with
  | [d1, d0, r1, r0, l1, l0, flag] =>
    match readFin (num d1 d0) 24, readFin (num r1 r0) 8, readFlag flag with
    | some d, some room, some inService =>
      if num l1 l0 < 60 ∨ 3600 < num l1 l0 then .error .badArg
      else match s.doorSetRefusal d room inService with
        | some rc => .error rc
        | none => done [] (setDoor d room (num l1 l0) inService s)
    | _, _, _ => .error .badArg
  | _ => .error .badArg

/-! ## DOOR_SEAL (R81) -/

/-- R81: a new session: all counts 0, sealed-at absent, total open seconds 0. -/
def newSession (ref : BitVec 32) (dir : Direction) (expected : Nat) : Session :=
  { ref := ref, direction := dir, expected := expected, count := 0, moved := 0, sealedAt := none, openSeconds := 0 }

/-- R81: a session is created, with the session notice where it is OUTBOUND (R69), or kept with a new expected count. -/
def sealSession (d : Fin 24) (ref : BitVec 32) (dir : Direction) (expected : Nat) (s : State) : State :=
  match (s.door d).session with
  | none =>
    let t := s.updDoor d fun x => { x with session := some (newSession ref dir expected) }
    if dir = .outbound then sessionNotice d t else t
  | some y => s.updDoor d fun x => { x with session := some { y with expected := expected } }

/-- R81: the checks on the state and on a session kept, then the seal sequence starts. -/
def sealDoor (d : Fin 24) (ref : BitVec 32) (dir : Direction) (expected : Nat) (s : State) : Reply :=
  if (s.door d).state ≠ .arrived then .error .doorState
  else if (s.door d).session.any fun y => y.direction ≠ dir || y.ref ≠ ref then .error .badArg
  else started (placeDoor d .inflate (doorEnter d .sealing (sealSession d ref dir expected s)))

/-- R81. -/
def doorSealReply (args : List Byte) (s : State) : Reply :=
  match args with
  | [d1, d0, r3, r2, r1, r0, dir, e1, e0] =>
    match readFin (num d1 d0) 24, readDirection dir with
    | some d, some dir =>
      if 60 < num e1 e0 then .error .badArg else sealDoor d (BitVec.ofNat 32 (beNat [r3, r2, r1, r0])) dir (num e1 e0) s
    | _, _ => .error .badArg
  | _ => .error .badArg

/-! ## DOOR_OPEN (R83), DOOR_CLOSE (R85), DOOR_RELEASE (R87) -/

/-- R83. The settle check is the table's, so it also holds back a door with no completed close while the clock is below 5 (log
entry 36). -/
def openDoor (d : Fin 24) (s : State) : Reply :=
  let x := s.door d
  if x.state = .opened then .error .already
  else if x.state ≠ .sealed then .error .doorState
  else if s.now < x.closeCompleted + Config.settleTime then .error .settling
  else if (s.hold x.room).state = .held ∨ (s.hold x.room).state = .forcedPending then .error .defrostHold
  else started (placeDoor d .leafUp (doorEnter d .opening s))

/-- R85. -/
def closeDoor (d : Fin 24) (force : Bool) (s : State) : Reply :=
  let x := s.door d
  if x.state = .sealed then .error .already
  else if x.state ≠ .opened then .error .doorState
  else if !x.useList.isEmpty && !force then .error .doorInUse
  else started (placeDoor d .leafDown (doorLeaveTo d .closing true s))

/-- R85. -/
def doorCloseReply (args : List Byte) (s : State) : Reply :=
  match args with
  | [d1, d0, force] =>
    match readFin (num d1 d0) 24, readFlag force with
    | some d, some force => closeDoor d force s
    | _, _ => .error .badArg
  | _ => .error .badArg

/-- R87. -/
def releaseDoor (d : Fin 24) (s : State) : Reply :=
  if (s.door d).state ≠ .sealed then .error .doorState
  else if 0 < s.ordersNaming d then .error .doorInUse
  else if s.inboundAt d && !(s.doorPallets d).isEmpty then .error .notEmpty
  else started (placeDoor d .deflate (doorEnter d .unsealing s))

/-! ## DOOR_CLEAR_FAULT (R92) and DOOR_READ (R100) -/

/-- R92. -/
def resolveFault (d : Fin 24) (s : State) : Reply :=
  let x := s.door d
  if x.state ≠ .fault ∨ x.last.leaf ≠ .closed ∨ x.last.stationFault ≠ 0#8 then .error .doorState
  else
    let t := clearDoorFault d s
    done [(t.door d).state.byte] t

/-- The last report of a door (R201, R204). -/
def DoorReport.bytes (r : DoorReport) : List Byte := [r.leaf.byte] ++ flag1 r.sealOk ++ flag1 r.trailer ++ [r.stationFault]

/-- R78: the fields of a session. -/
def Session.bytes (y : Session) : List Byte :=
  be 4 y.ref.toNat ++ [y.direction.byte] ++ num2 y.expected ++ num2 y.count ++ num2 y.moved ++ optTime y.sealedAt
    ++ be 4 y.openSeconds

/-- R77: the fields of a door record, and its session. -/
def Door.results (x : Door) : List Byte :=
  num2 x.room.1 ++ num2 x.openLimit ++ flag1 x.inService ++ [x.state.byte] ++ optField 1 (x.fault.map fun c => [c.byte])
    ++ optField 1 (x.remembered.map fun st => [st.byte]) ++ x.last.bytes ++ [x.outcome.byte] ++ num2 x.outcome.pallets
    ++ time4 x.stateSince ++ optTime x.openSince ++ time4 x.closeCompleted ++ listOf order2 x.useList
    ++ optField 20 (x.session.map Session.bytes)

/-- R97: the hold state and the claim set, each claim as its evaporator's number and one byte, 01h for forced (log entry 6). -/
def RoomHold.results (h : RoomHold) : List Byte :=
  [h.state.byte] ++ listOf (fun c => num2 c.1.1 ++ flag1 c.2) h.claims

/-- R100: the results of DOOR_READ. -/
def State.doorResults (s : State) (d : Fin 24) : List Byte :=
  let room := (s.door d).room
  (s.door d).results ++ (s.hold room).results ++ temp2 (s.thermal room).temp ++ flag1 (s.thermal room).known
    ++ [(s.thermal room).state.byte]

/-! ## Limits (R82, R84, R88) -/

/-- A limit of `limit` seconds from state-since has expired in one of some states (4.3). -/
def State.limitDue (s : State) (d : Fin 24) (limit : Nat) (states : List DoorState) : Bool :=
  states.contains (s.door d).state && decide ((s.door d).stateSince + limit ≤ s.now)

/-- R82: the seal limit expires in SEALING. -/
def sealExpiry (d : Fin 24) (s : State) : State :=
  raiseAlarm .sealFailed (.door d) none (doorOutcome d .sealFailed (placeDoor d .deflate (doorEnter d .arrived s)))

/-- R84: the open-time wait expires in OPEN. -/
def openWaitExpiry (d : Fin 24) (s : State) : State :=
  raiseAlarm .doorOpenLong (.door d) none (s.updDoor d fun x => { x with openWaitDue := none })

/-- The open-time wait of a door has expired (R84). -/
def State.openWaitOver (s : State) (d : Fin 24) : Bool :=
  decide ((s.door d).state = .opened) && (s.door d).openWaitDue.any fun t => decide (t ≤ s.now)

/-! ## The rows -/

/-- DOOR_SET (40h). -/
def execDoorSet (s : State) : Host.Outcome State Fault Refusal := .next (handOff 0x40 doorSetReply s)

/-- DOOR_SEAL (41h). -/
def execDoorSeal (s : State) : Host.Outcome State Fault Refusal := .next (handOff 0x41 doorSealReply s)

/-- DOOR_OPEN (42h). -/
def execDoorOpen (s : State) : Host.Outcome State Fault Refusal := .next (handOff 0x42 (oneFin 24 openDoor) s)

/-- DOOR_CLOSE (43h). -/
def execDoorClose (s : State) : Host.Outcome State Fault Refusal := .next (handOff 0x43 doorCloseReply s)

/-- DOOR_RELEASE (44h). -/
def execDoorRelease (s : State) : Host.Outcome State Fault Refusal := .next (handOff 0x44 (oneFin 24 releaseDoor) s)

/-- DOOR_READ (45h). -/
def execDoorRead (s : State) : Host.Outcome State Fault Refusal :=
  .next (handOff 0x45 (oneFin 24 fun d s => done (s.doorResults d) s) s)

/-- DOOR_CLEAR_FAULT (46h). -/
def execDoorClearFault (s : State) : Host.Outcome State Fault Refusal := .next (handOff 0x46 (oneFin 24 resolveFault) s)

/-- SEAL_LIMIT_EXPIRY (R82). -/
def execSealLimitExpiry (d : Fin 24) (s : State) : Host.Outcome State Fault Refusal :=
  .next (if s.limitDue d Config.sealLimit [.sealing] then settle (sealExpiry d s) else s)

/-- LEAF_TRAVEL_LIMIT_EXPIRY (R84). -/
def execLeafTravelLimitExpiry (d : Fin 24) (s : State) : Host.Outcome State Fault Refusal :=
  .next (if s.limitDue d Config.leafLimit [.opening, .closing] then settle (enterFault d .leafTimeout s) else s)

/-- UNSEAL_LIMIT_EXPIRY (R88). -/
def execUnsealLimitExpiry (d : Fin 24) (s : State) : Host.Outcome State Fault Refusal :=
  .next (if s.limitDue d Config.unsealLimit [.unsealing] then settle (enterFault d .unsealTimeout s) else s)

/-- OPEN_TIME_WAIT_EXPIRY (R84). -/
def execOpenTimeWaitExpiry (d : Fin 24) (s : State) : Host.Outcome State Fault Refusal :=
  .next (if s.openWaitOver d then settle (openWaitExpiry d s) else s)

end Sys2Proof.Machine
end

