-- ==== Sys2Proof/Machine/LaneEvents.lean ====
section
/-! DEFINITION. The events of the plant lanes: the round timer (R160), missed polls (R163), the reports of the four lanes (R165), and
MDS's dispatch retry interval (R59). -/

namespace Sys2Proof.Machine

/-- The round timer of a polled lane has expired (R160). -/
def State.roundOver (s : State) (l : Lane) : Bool :=
  decide ((s.laneRec l).polling = .polled) && decide ((s.laneRec l).roundDue ≤ s.timeBase)

/-- The bytes received on a lane are a good answer to the poll in flight there, with a report of the row's kind (R160, R165). Any
other bytes are no event of the row (log entry 2). -/
def reportRow (l : Lane) (ofRow : Report → Bool) (received : List Byte) (s : State) : State :=
  match s.judged l received with
  | some (st, some rep) => if ofRow rep then settle (goodAnswer l st rep s) else s
  | _ => s

/-- R163: the poll in flight ends without a good answer. -/
def missedRow (l : Lane) (received : List Byte) (s : State) : State :=
  match s.judged l received with
  | some (st, none) => settle (missedAnswer l st s)
  | _ => s

/-- The retry interval has expired (R59). -/
def State.retryOver (s : State) : Bool := s.mds.retryDue.any fun t => decide (t ≤ s.now)

/-- R59: an expiry of the retry interval; the next one is 1 s later if the condition still holds after the pass. -/
def retryExpiry (s : State) : State := settle (dispatchPass (s.withMds { s.mds with retryDue := none }))

def Report.isDoor : Report → Bool
  | .door _ => true
  | _ => false

def Report.isProbes : Report → Bool
  | .probes .. => true
  | _ => false

def Report.isController : Report → Bool
  | .controller _ => true
  | _ => false

def Report.isPicked : Report → Bool
  | .picked .. => true
  | _ => false

def Report.isDropped : Report → Bool
  | .dropped _ => true
  | _ => false

def Report.isAbandon : Report → Bool
  | .abandon _ => true
  | _ => false

def Report.isSubmit : Report → Bool
  | .submit _ => true
  | _ => false

def Report.isReady : Report → Bool
  | .ready _ => true
  | _ => false

/-! ## The rows -/

/-- LANE_ROUND (R160). -/
def execLaneRound (l : Lane) (s : State) : Host.Outcome State Fault Refusal :=
  .next (if s.roundOver l then settle (roundExpiry l s) else s)

/-- MISSED_POLL (R163). -/
def execMissedPoll (l : Lane) (received : List Byte) (s : State) : Host.Outcome State Fault Refusal :=
  .next (missedRow l received s)

/-- DOOR_STATUS (R80). -/
def execDoorStatus (received : List Byte) (s : State) : Host.Outcome State Fault Refusal :=
  .next (reportRow .door Report.isDoor received s)

/-- PROBE_SET_REPORT (R104). -/
def execProbeSetReport (received : List Byte) (s : State) : Host.Outcome State Fault Refusal :=
  .next (reportRow .probe Report.isProbes received s)

/-- CONTROLLER_STATUS (R124). -/
def execControllerStatus (received : List Byte) (s : State) : Host.Outcome State Fault Refusal :=
  .next (reportRow .evap Report.isController received s)

/-- PICKED (R62). -/
def execPicked (received : List Byte) (s : State) : Host.Outcome State Fault Refusal :=
  .next (reportRow .term Report.isPicked received s)

/-- DROPPED (R63). -/
def execDropped (received : List Byte) (s : State) : Host.Outcome State Fault Refusal :=
  .next (reportRow .term Report.isDropped received s)

/-- ABANDON (R65). -/
def execAbandon (received : List Byte) (s : State) : Host.Outcome State Fault Refusal :=
  .next (reportRow .term Report.isAbandon received s)

/-- SUBMIT (R66). -/
def execSubmit (received : List Byte) (s : State) : Host.Outcome State Fault Refusal :=
  .next (reportRow .term Report.isSubmit received s)

/-- READY_REPORT (R67). -/
def execReadyReport (received : List Byte) (s : State) : Host.Outcome State Fault Refusal :=
  .next (reportRow .term Report.isReady received s)

/-- DISPATCH_RETRY_EXPIRY (R59). -/
def execDispatchRetryExpiry (s : State) : Host.Outcome State Fault Refusal :=
  .next (if s.retryOver then retryExpiry s else s)

end Sys2Proof.Machine
end

