-- ==== Sys2Proof/Machine/LinkRequests.lean ====
section
/-! DEFINITION. Exchanges and the requests to LKP: READ_IDENT, READ_ATTENTION, ATTENTION_MASK, LINK_RESET, and a request code no rule
defines (R171 to R174, R179 to R182). -/

namespace Sys2Proof.Machine

/-- R181: vendor code, part code, revision (R200: five bytes). -/
def identBytes : List Byte := be 2 0x0A7D ++ be 2 0x2408 ++ [1#8]

/-- R176, R179: the contents of a cause; empty where it is not pending. -/
def State.causeContents (s : State) (c : Cause) : List Byte :=
  let on := s.lkp.pendingCauses.get c
  match c with
  | .door => listOf (fun d => num2 d.1) (if on then s.lkp.doorSet else [])
  | .defrost => listOf (fun e => num2 e.1) (if on then s.lkp.defrostSet else [])
  | .room => listOf (fun r => num2 r.1) (if on then s.lkp.roomSet else [])
  | .move => num2 (if on then s.mds.finished.length else 0)
  | .link => [if on then s.lkp.reasons.byte else 0#8] ++ num2 (if on then s.lkp.discards else 0)
  | _ => []

/-- R179: the flags of all seven causes as they stand before anything is cleared. -/
def State.flagBytes (s : State) : List Byte := [s.lkp.pendingCauses.byte, s.lkp.masks.byte]

/-- R179: a cause is returned and cleared, except MOVE. -/
def returnCause (c : Cause) (s : State) : Reply := done ([c.byte] ++ s.causeContents c ++ s.flagBytes) (clearCause c s)

/-- R179: no cause named. -/
def returnTop (s : State) : Reply :=
  match s.topCause with
  | some c => returnCause c s
  | none => done ([0#8] ++ s.flagBytes) s

/-- R179, R199, R201. -/
def readAttentionReply (args : List Byte) (s : State) : Reply :=
  match args with
  | [b] =>
    if b = 0#8 then returnTop s
    else match readCause b with
      | some c => returnCause c s
      | none => .error .badArg
  | _ => .error .badArg

/-- R180, R199; bit 7 is unused (R200). -/
def attentionMaskReply (args : List Byte) (s : State) : Reply :=
  match args with
  | [b] =>
    if b.getLsbD 7 then .error .badArg
    else done [s.lkp.masks.byte] (s.withLkp { s.lkp with masks := readCauseFlags b })
  | _ => .error .badArg

/-- R182: what LINK_RESET leaves of LKP before its own answer. An exchange in progress goes on shifting out the frame it began with,
though the answer is no longer in the queue and none leaves it at the end (log entry 49); what the last exchange shifted out stays as
it was. -/
def Lkp.reset (l : Lkp) : Lkp :=
  { Lkp.coldStart with
    reasons := { linkReset := true }
    exchange := l.exchange.map fun x => { x with answer := false }
    shifted := l.shifted }

/-- R182: LINK_RESET; the answer carries the numbers of requests and answers removed. -/
def linkReset (s : State) : Reply :=
  done (num2 (s.lkp.urgent.length + s.lkp.normal.length) ++ num2 s.lkp.answers.length) (s.withLkp s.lkp.reset)

/-! ## The rows -/

/-- EXCHANGE_BEGIN (R171). -/
def execExchangeBegin (s : State) : Host.Outcome State Fault Refusal :=
  .next (if s.lkp.exchange.isSome then s else beginExchange s)

/-- EXCHANGE_END (R172). -/
def execExchangeEnd (received : List Byte) (s : State) : Host.Outcome State Fault Refusal := .next (endExchange received s)

/-- UNKNOWN_REQUEST (R174, step 1). -/
def execUnknownRequest (s : State) : Host.Outcome State Fault Refusal := .next (handOffUnknown s)

/-- READ_IDENT (01h). -/
def execReadIdent (s : State) : Host.Outcome State Fault Refusal := .next (handOff 0x01 (noArgs (done identBytes)) s)

/-- READ_ATTENTION (02h). -/
def execReadAttention (s : State) : Host.Outcome State Fault Refusal := .next (handOff 0x02 readAttentionReply s)

/-- ATTENTION_MASK (03h). -/
def execAttentionMask (s : State) : Host.Outcome State Fault Refusal := .next (handOff 0x03 attentionMaskReply s)

/-- LINK_RESET (08h). -/
def execLinkReset (s : State) : Host.Outcome State Fault Refusal := .next (handOff 0x08 (noArgs linkReset) s)

end Sys2Proof.Machine
end

