-- ==== Sys2Proof/Machine/MoveRequests.lean ====
section
/-! DEFINITION. The requests to MDS: MOVE, MOVE_BATCH, MOVE_CANCEL, MOVE_REDIRECT, MOVE_READ, MOVE_COLLECT, DISPATCH_HOLD,
TERMINAL_SET, TERMINAL_READ (R51 to R57, R68, R74, R75). -/

namespace Sys2Proof.Machine

/-- R51, R52. -/
def moveReply (args : List Byte) (s : State) : Reply :=
  match args with
  | [h1, h0, d1, d0, prio] =>
    match readPriority prio, readDest (num d1 d0) with
    | some p, some dest =>
      match tryMove (readHandle (num h1 h0)) (some dest) p s with
      | .error rc => .error rc
      | .ok (o, place, t) => done (order2 o ++ place2 place) (dispatchPass t)
    | _, _ => .error .badArg
  | _ => .error .badArg

/-- R53: the fields of a MOVE_BATCH. -/
structure Batch where
  elements : List (Nat × Bool)
  destA : Option Dest
  destB : Option Dest
  priority : Priority
deriving DecidableEq, Repr

/-- R53: the argument list of a MOVE_BATCH; none where the whole request is BAD_ARG. A malformed destination is refused element by
element (log entry 22). -/
def readBatch (args : List Byte) : Option Batch :=
  match args with
  | [] => none
  | n :: rest =>
    let k := n.toNat
    match (rest.drop (2 * k)) with
    | m :: more =>
      match readNums (rest.take (2 * k)), (more.take k).mapM readFlag, more.drop k with
      | some handles, some marks, [a1, a0, b1, b0, prio] =>
        match readPriority prio with
        | some p =>
          if 1 ≤ k ∧ k ≤ 32 ∧ m = n ∧ handles.length = k ∧ marks.length = k then
            some { elements := handles.zip marks, destA := readDest (num a1 a0), destB := readDest (num b1 b0), priority := p }
          else none
        | none => none
      | _, _, _ => none
    | [] => none

/-- R53: the results of a batch. -/
def batchResults (out : List (ResultCode × Option OrderId)) : List Byte :=
  num2 (out.filter fun x => x.2.isSome).length ++ listOf (fun x => [x.1.byte] ++ optOrder x.2) out

/-- R53: the batch is taken whole and one dispatch pass follows. -/
def moveBatchReply (args : List Byte) (s : State) : Reply :=
  match readBatch args with
  | none => .error .badArg
  | some b =>
    let (out, t) := batchElements b.destA b.destB b.priority (b.elements.map fun x => (readHandle x.1, x.2)) s
    done (batchResults out) (dispatchPass t)

/-- R68: MOVE_CANCEL of a CARRYING order whose terminal is OFFLINE, with a room: an abandon to the room's floor. -/
def cancelCarried (o : OrderId) (x : Order) (t : Fin 16) (room : Nat) (s : State) : Reply :=
  match abandonOrder o x room .abandonedCancelled s with
  | none => .error .badArg
  | some s1 => done [] (dispatchPass (s1.updTerminal t fun y => { y with bound := none, revokeDue := some o }))

/-- R68: MOVE_CANCEL by the order's state. -/
def cancelOrder (o : OrderId) (x : Order) (room : Option Nat) (s : State) : Reply :=
  match x.state with
  | .queued | .granted => done [] (withdrawOrder .withdrawnCancelled o s)
  | .finished => .error .orderState
  | .carrying =>
    match x.terminal, room with
    | some t, some r => if (s.terminal t).state = .offline then cancelCarried o x t r s else .error .inCarry
    | _, _ => .error .inCarry

/-- R68. -/
def moveCancelReply (args : List Byte) (s : State) : Reply :=
  match args with
  | [o1, o0, flag, r1, r0] =>
    match readOptional flag (num r1 r0) with
    | none => .error .badArg
    | some room =>
      let o := readOrderId (num o1 o0)
      match s.order? o with
      | none => .error .staleHandle
      | some x => cancelOrder o x room s
  | _ => .error .badArg

/-- R74. -/
def moveRedirectReply (args : List Byte) (s : State) : Reply :=
  match args with
  | [o1, o0, d1, d0] =>
    match readDest (num d1 d0) with
    | none => .error .badArg
    | some dest =>
      let o := readOrderId (num o1 o0)
      match s.order? o with
      | none => .error .staleHandle
      | some x =>
        match tryRedirect o x dest s with
        | .error rc => .error rc
        | .ok (p, t) => done (place2 p) (afterRedirect o x p t)
  | _ => .error .badArg

/-- R75: every field of R47. -/
def Order.results (x : Order) : List Byte :=
  handle2 x.pallet ++ place2 x.origin ++ place2 x.dest ++ [x.priority.byte, x.state.byte]
    ++ optField 2 (x.terminal.map fun t => num2 t.1) ++ optField 2 (x.routeDoor.map fun d => num2 d.1) ++ time4 x.createdAt
    ++ optTime x.finishedAt ++ optField 2 (x.outcome.map Outcome.bytes)

/-- R75: MOVE_READ. -/
def moveReadReply (args : List Byte) (s : State) : Reply :=
  match args with
  | [o1, o0] =>
    match s.order? (readOrderId (num o1 o0)) with
    | some x => done x.results s
    | none => .error .staleHandle
  | _ => .error .badArg

/-- R46: an order is retired: its entry becomes free and the generation advances. -/
def retireOrder (o : OrderId) (s : State) : State :=
  s.setOrderEntry o.index.1 { gen := o.gen + 1, rec? := none }

/-- R75: MOVE_COLLECT returns and retires up to 8 orders from the head of the finished list. -/
def moveCollect (s : State) : Reply :=
  let taken := s.mds.finished.take 8
  let t := s.withMds { s.mds with finished := s.mds.finished.drop 8 }
  done (listOf Order.results (taken.filterMap s.order?)) (t.forEach taken retireOrder)

/-- R57: a dispatch hold takes a value; a hold cleared is followed by a pass. -/
def setHold (value : Bool) (ts : List (Fin 16)) (s : State) : State :=
  let t := s.forEach ts fun i s => s.updTerminal i fun x => { x with dispatchHold := value }
  if value then t else dispatchPass t

/-- R57: the terminals whose hold would change. -/
def State.holdsChanged (s : State) (value : Bool) : List (Fin 16) :=
  (List.finRange 16).filter fun t => (s.terminal t).dispatchHold ≠ value

/-- R57, ALL: every terminal's hold takes the value; the answer is the number that changed. -/
def setAllHolds (value : Bool) (s : State) : Reply :=
  let hit := s.holdsChanged value
  done (num2 hit.length) (if hit.isEmpty then s else setHold value hit s)

/-- R57, R201. -/
def dispatchHoldReply (args : List Byte) (s : State) : Reply :=
  match args with
  | [target, action] =>
    match readFlag action with
    | none => .error .badArg
    | some value =>
      if target = 0xFF#8 then setAllHolds value s
      else match readFin target.toNat 16 with
        | none => .error .badArg
        | some t => if (s.terminal t).dispatchHold = value then .error .already else done [] (setHold value [t] s)
  | _ => .error .badArg

/-- R56: TERMINAL_SET on a terminal whose flag changes, with LPL's side (R168). -/
def setTerminal (t : Fin 16) (enabled : Bool) (s : State) : State :=
  configuredChanged (.term t) (!enabled) enabled <| s.updTerminal t fun x =>
    if enabled then { x with enabled := true, state := .offline, handsFull := false, revokeDue := none }
    else { x with enabled := false, state := .disabled, revokeDue := none }

/-- R56. -/
def terminalSetReply (args : List Byte) (s : State) : Reply :=
  match args with
  | [hi, lo, flag] =>
    match readFin (num hi lo) 16, readFlag flag with
    | some t, some enabled =>
      if (s.terminal t).enabled = enabled then .error .already
      else if !enabled && (s.terminal t).bound.isSome then .error .busy
      else done [] (setTerminal t enabled s)
    | _, _ => .error .badArg
  | _ => .error .badArg

/-- R75: every field of R54. -/
def Terminal.results (x : Terminal) : List Byte :=
  flag1 x.enabled ++ [x.state.byte] ++ optOrder x.bound ++ flag1 x.handsFull ++ flag1 x.dispatchHold ++ time4 x.idleSince
    ++ optOrder x.revokeDue

/-! ## The rows -/

/-- MOVE (30h). -/
def execMove (s : State) : Host.Outcome State Fault Refusal := .next (handOff 0x30 moveReply s)

/-- MOVE_BATCH (31h). -/
def execMoveBatch (s : State) : Host.Outcome State Fault Refusal := .next (handOff 0x31 moveBatchReply s)

/-- MOVE_CANCEL (32h). -/
def execMoveCancel (s : State) : Host.Outcome State Fault Refusal := .next (handOff 0x32 moveCancelReply s)

/-- MOVE_REDIRECT (33h). -/
def execMoveRedirect (s : State) : Host.Outcome State Fault Refusal := .next (handOff 0x33 moveRedirectReply s)

/-- MOVE_READ (34h). -/
def execMoveRead (s : State) : Host.Outcome State Fault Refusal := .next (handOff 0x34 moveReadReply s)

/-- MOVE_COLLECT (35h). -/
def execMoveCollect (s : State) : Host.Outcome State Fault Refusal := .next (handOff 0x35 (noArgs moveCollect) s)

/-- DISPATCH_HOLD (36h). -/
def execDispatchHold (s : State) : Host.Outcome State Fault Refusal := .next (handOff 0x36 dispatchHoldReply s)

/-- TERMINAL_SET (37h). -/
def execTerminalSet (s : State) : Host.Outcome State Fault Refusal := .next (handOff 0x37 terminalSetReply s)

/-- TERMINAL_READ (38h). -/
def execTerminalRead (s : State) : Host.Outcome State Fault Refusal :=
  .next (handOff 0x38 (oneFin 16 fun t s => done (s.terminal t).results s) s)

end Sys2Proof.Machine
end

