-- ==== Sys2Proof/Machine/PlaceRequests.lean ====
section
/-! DEFINITION. The requests to PDR: ROOM_SET, SLOT_MAP_SET, ROOM_READ, ROOM_COUNT, SLOT_READ, SLOT_BLOCK, LANE_READ (R13 to R17). -/

namespace Sys2Proof.Machine

/-- R13: a kind change would disturb pallets or reservations of the room. -/
def State.roomOccupied (s : State) (r : Fin 8) : Bool :=
  (s.livePallets.any fun (_, p) => s.roomOfPlace p.place = some r)
    || decide (0 < s.countSlots r SlotState.isReserved)
    || (List.finRange 24).any fun d => decide ((s.door d).room = r) && decide (0 < (s.stagingLane d).reserved)

/-- R13: the kind is set, and TSU evaluates the room (R110). -/
def setRoomKind (r : Fin 8) (k : RoomKind) (s : State) : State :=
  evaluateRoom r (s.withPdr { s.pdr with kind := upd s.pdr.kind r fun _ => k })

/-- R13. -/
def roomSetReply (args : List Byte) (s : State) : Reply :=
  match args with
  | [hi, lo, k] =>
    match readFin (num hi lo) 8, readRoomKind k with
    | some r, some kind =>
      if s.kind r = kind then done [] s
      else if s.roomOccupied r then .error .occupied
      else done [] (setRoomKind r kind s)
    | _, _ => .error .badArg
  | _ => .error .badArg

/-- R14: the endings are at most 4096 and do not decrease. -/
def endingsOk (ending : Vector Nat 8) : Bool :=
  (List.finRange 8).all fun r =>
    ending.get r ≤ 4096 && (if h : r.1 = 0 then true else decide (ending.get ⟨r.1 - 1, by omega⟩ ≤ ending.get r))

/-- R14: a slot that is OCCUPIED or RESERVED would belong to a different room. -/
def State.mapDisturbs (s : State) (ending : Vector Nat 8) : Bool :=
  s.pdr.slots.any fun (n, v) => (v.isOccupied || v.isReserved) && decide (s.roomOfSlot n ≠ roomOfSlotIn ending n)

/-- R14: the new map; every slot that belongs to no room becomes FREE. -/
def setSlotMap (ending : Vector Nat 8) (s : State) : State :=
  s.withPdr { s.pdr with
    ending := ending
    slots := s.pdr.slots.filter fun (n, _) => (roomOfSlotIn ending n).isSome }

/-- R14. -/
def slotMapSetReply (args : List Byte) (s : State) : Reply :=
  match args with
  | [n, a1, a0, b1, b0, c1, c0, d1, d0, e1, e0, f1, f0, g1, g0, h1, h0] =>
    let ending := #v[num a1 a0, num b1 b0, num c1 c0, num d1 d0, num e1 e0, num f1 f0, num g1 g0, num h1 h0]
    if n ≠ 8#8 || !endingsOk ending then .error .badArg
    else if s.mapDisturbs ending then .error .occupied
    else done [] (setSlotMap ending s)
  | _ => .error .badArg

/-- R15: the staging lanes that belong to a room, in ascending number. -/
def State.roomLanes (s : State) (r : Fin 8) : List (Fin 24) := (List.finRange 24).filter fun d => (s.door d).room = r

/-- R15: the results of ROOM_READ. Each listed lane is its number with its usable flag right after it (log entry 6). -/
def State.roomResults (s : State) (r : Fin 8) : List Byte :=
  [(s.kind r).byte] ++ num2 (s.firstSlot r) ++ num2 (s.pdr.ending.get r) ++ num2 (s.slotCount r) ++ num2 (s.floor r).length
    ++ listOf (fun d => num2 d.1 ++ flag1 (s.laneUsable d)) (s.roomLanes r)

/-- R15: the results of ROOM_COUNT. -/
def State.roomCountResults (s : State) (r : Fin 8) : List Byte :=
  num2 (s.countSlots r SlotState.isOccupied) ++ num2 (s.countSlots r SlotState.isReserved)
    ++ num2 (s.countSlots r SlotState.isBlocked) ++ optField 2 ((s.lowestFree r).map fun n => num2 n.1)

/-- A slot number that a request names and that belongs to a room (R16, R17). -/
def State.slotArg (s : State) (n : Nat) : Option (Fin 8) := if n < 4096 then s.roomOfSlot n else none

/-- R16: the reference of a slot's state; FFFFh where it has none (log entry 6). -/
def SlotState.reference : SlotState → List Byte
  | .reserved o => order2 o
  | .occupied h => handle2 h
  | _ => be 2 0xFFFF

/-- R16: SLOT_READ. -/
def slotReadReply (args : List Byte) (s : State) : Reply :=
  match args with
  | [hi, lo] =>
    match s.slotArg (num hi lo) with
    | some r => done (num2 r.1 ++ [(s.slot (num hi lo)).byte] ++ (s.slot (num hi lo)).reference) s
    | none => .error .badArg
  | _ => .error .badArg

/-- R16: the results of LANE_READ. -/
def State.laneResults (s : State) (d : Fin 24) : List Byte :=
  num2 (s.door d).room.1 ++ flag1 (s.laneUsable d) ++ listOf handle2 (s.stagingLane d).members
    ++ num2 (s.stagingLane d).reserved

/-- R17: SLOT_BLOCK decided by the slot's state. -/
def blockSlot (n : Nat) (block : Bool) (s : State) : Reply :=
  match s.slot n with
  | .free => if block then done [] (s.setSlot n .blocked) else .error .already
  | .blocked => if block then .error .already else done [] (s.setSlot n .free)
  | _ => .error .occupied

/-- R17. -/
def slotBlockReply (args : List Byte) (s : State) : Reply :=
  match args with
  | [hi, lo, action] =>
    match s.slotArg (num hi lo), readFlag action with
    | some _, some block => blockSlot (num hi lo) block s
    | _, _ => .error .badArg
  | _ => .error .badArg

/-! ## The rows -/

/-- ROOM_SET (10h). -/
def execRoomSet (s : State) : Host.Outcome State Fault Refusal := .next (handOff 0x10 roomSetReply s)

/-- SLOT_MAP_SET (11h). -/
def execSlotMapSet (s : State) : Host.Outcome State Fault Refusal := .next (handOff 0x11 slotMapSetReply s)

/-- ROOM_READ (12h). -/
def execRoomRead (s : State) : Host.Outcome State Fault Refusal :=
  .next (handOff 0x12 (oneFin 8 fun r s => done (s.roomResults r) s) s)

/-- ROOM_COUNT (13h). -/
def execRoomCount (s : State) : Host.Outcome State Fault Refusal :=
  .next (handOff 0x13 (oneFin 8 fun r s => done (s.roomCountResults r) s) s)

/-- SLOT_READ (14h). -/
def execSlotRead (s : State) : Host.Outcome State Fault Refusal := .next (handOff 0x14 slotReadReply s)

/-- SLOT_BLOCK (15h). -/
def execSlotBlock (s : State) : Host.Outcome State Fault Refusal := .next (handOff 0x15 slotBlockReply s)

/-- LANE_READ (16h). -/
def execLaneRead (s : State) : Host.Outcome State Fault Refusal :=
  .next (handOff 0x16 (oneFin 24 fun d s => done (s.laneResults d) s) s)

end Sys2Proof.Machine
end

