-- ==== Sys2Proof/Machine/SiteRequests.lean ====
section
/-! DEFINITION. The requests to MOC: SITE_SET, START_SITE, STOP_SITE, READ_MODE (R189, R190, R192, R196), and the events of modes, supply
and resets (R186, R187, R190, R191, R193 to R195). -/

namespace Sys2Proof.Machine

/-! ## SITE_SET (R189) -/

/-- R118: last-accrual keeps the time elapsed since it. -/
def moveAccrual (old new t : Time) : Time := new - (old - t)

/-- R118: TSU at a change of the clock. -/
def Tsu.moveClock (old new : Time) (b : Tsu) : Tsu :=
  { b with
    lastAccrual := moveAccrual old new b.lastAccrual
    rooms := b.rooms.map fun x => { x with maskUntil := moveTime old new x.maskUntil } }

/-- R128: an evaporator at a change of the clock. -/
def Evap.moveClock (old new : Time) (x : Evap) : Evap :=
  { x with
    demandSince := x.demandSince.map (moveTime old new)
    phaseSince := moveTime old new x.phaseSince
    deadline := x.deadline.map (moveTime old new) }

/-- R189: a door at a change of the clock. -/
def Door.moveClock (old new : Time) (x : Door) : Door :=
  { x with closeCompleted := moveTime old new x.closeCompleted, stateSince := moveTime old new x.stateSince }

/-- R189: MOC at a change of the clock. -/
def Moc.moveClock (new : Time) (m : Moc) : Moc :=
  { m with
    clock := new
    modeSince := moveTime m.clock new m.modeSince
    stoppedAt := m.stoppedAt.map (moveTime m.clock new) }

/-- R189, step 3: the clock takes a value. -/
def setClock (new : Time) (s : State) : State :=
  let old := s.now
  (((s.withTsu (s.tsu.moveClock old new)).withDfc
      { s.dfc with evaps := s.dfc.evaps.map (Evap.moveClock old new) }).withDkc
      { s.dkc with doors := s.dkc.doors.map (Door.moveClock old new) }).withMoc (s.moc.moveClock new)

/-- R189: the results, as they stand after the step. -/
def State.siteResults (s : State) : List Byte := time4 s.now ++ num2 s.dfc.allowance

/-- R189: the steps of SITE_SET. -/
def setSite (clock : Option Time) (allowance : Option Nat) (s : State) : Reply :=
  if allowance.any fun n => n < 1 || 4 < n then .error .badArg
  else if allowance.any fun n => n < s.allowanceUsed then .error .busy
  else
    let t := s.withDfc { s.dfc with allowance := allowance.getD s.dfc.allowance }
    let u := match clock with
      | some c => setClock c t
      | none => t
    done u.siteResults u

/-- R189, R200, R201. -/
def siteSetReply (args : List Byte) (s : State) : Reply :=
  match args with
  | [f, c3, c2, c1, c0, g, a1, a0] =>
    match readOptional f (beNat [c3, c2, c1, c0]), readOptional g (num a1 a0) with
    | some clock, some allowance => setSite clock allowance s
    | _, _ => .error .badArg
  | _ => .error .badArg

/-! ## START_SITE (R190), STOP_SITE (R192), READ_MODE (R196) -/

/-- R190. -/
def startSite (order : List Block) (s : State) : Reply :=
  if s.moc.supplyFail then .error .supply
  else if s.moc.stoppedAt.any fun t => s.now < t + Config.siteHoldTime then .error .tooSoon
  else
    let t := s.withMoc { s.moc with rollCounts := Vector.replicate 4 0 }
    started (enterMode .checking order (setSelfCheck .inProgress t))

/-- R192, second check. -/
def State.ordersRunning (s : State) : Bool := s.orders.any fun (_, x) => x.state = .granted || x.state = .carrying

/-- R192, third check. -/
def DoorState.inSequence : DoorState → Bool
  | .sealing | .opening | .opened | .closing | .unsealing => true
  | _ => false

/-- R192, third check. -/
def State.doorsRunning (s : State) : Bool := (List.finRange 24).any fun d => (s.door d).state.inSequence

/-- R192. -/
def stopSite (order : List Block) (s : State) : Reply :=
  if s.now < s.moc.modeSince + Config.siteHoldTime then .error .tooSoon
  else if s.ordersRunning || s.doorsRunning || decide (0 < s.allowanceUsed) then .error .busy
  else done [] (enterMode .standby order (s.withMoc { s.moc with stoppedAt := some s.now }))

/-- R196: the results of READ_MODE. -/
def State.modeResults (s : State) : List Byte :=
  [s.moc.mode.byte] ++ time4 s.moc.modeSince ++ optField 1 (s.moc.remembered.map fun m => [m.byte]) ++ optTime s.moc.stoppedAt
    ++ [strapByte s.moc.strap] ++ s.moc.selfCheck.bytes ++ s.moc.rollCounts.toList.flatMap num2 ++ flag1 s.moc.supplyFail
    ++ flag1 s.moc.batteryLow ++ time4 s.now ++ num2 s.dfc.allowance

/-! ## Events -/

/-- R191: the limit has expired. -/
def State.rollCallOver (s : State) : Bool := s.moc.rollCallDue.any fun t => decide (t ≤ s.now)

/-- R186: a cold start; the queue of commands and the free values are not the part's. -/
def coldStart (strap : Strap) (supplyFail batteryLow : Bool) (order : List Block) (s : State) : State :=
  sampleLines supplyFail batteryLow order ((State.coldStart strap s.pending).withFreeDraws s.freeDraws)

/-- R187: a warm restart. -/
def warmRestart (supplyFail batteryLow : Bool) (order : List Block) (s : State) : State :=
  sampleLines supplyFail batteryLow order (restartChanges supplyFail batteryLow s (warmRestartBlocks s))

/-! ## The rows -/

/-- SITE_SET (04h). -/
def execSiteSet (s : State) : Host.Outcome State Fault Refusal := .next (handOff 0x04 siteSetReply s)

/-- START_SITE (05h). -/
def execStartSite (order : List Block) (s : State) : Host.Outcome State Fault Refusal :=
  .next (handOff 0x05 (noArgs (startSite order)) s)

/-- STOP_SITE (06h). -/
def execStopSite (order : List Block) (s : State) : Host.Outcome State Fault Refusal :=
  .next (handOff 0x06 (noArgs (stopSite order)) s)

/-- READ_MODE (07h). -/
def execReadMode (s : State) : Host.Outcome State Fault Refusal :=
  .next (handOff 0x07 (noArgs fun s => done s.modeResults s) s)

/-- COLD_START (R186). -/
def execColdStart (strap : Strap) (supplyFail batteryLow : Bool) (order : List Block) (s : State) :
    Host.Outcome State Fault Refusal :=
  .next (settle (coldStart strap supplyFail batteryLow order s))

/-- WARM_RESTART (R187). -/
def execWarmRestart (supplyFail batteryLow : Bool) (order : List Block) (s : State) : Host.Outcome State Fault Refusal :=
  .next (settle (warmRestart supplyFail batteryLow order s))

/-- SUPPLY_FAIL_ACTIVE (R193). -/
def execSupplyFailActive (order : List Block) (s : State) : Host.Outcome State Fault Refusal :=
  .next (if s.moc.supplyFail then s else settle (takeSupplyFail order s))

/-- SUPPLY_FAIL_INACTIVE (R195). -/
def execSupplyFailInactive (order : List Block) (s : State) : Host.Outcome State Fault Refusal :=
  .next (if s.moc.supplyFail then settle (takeSupplyReturn order s) else s)

/-- BATTERY_LOW_ACTIVE (R194). -/
def execBatteryLowActive (order : List Block) (s : State) : Host.Outcome State Fault Refusal :=
  .next (if s.moc.batteryLow then s else settle (takeBatteryLow order s))

/-- BATTERY_LOW_INACTIVE (R194): the line is recorded and SUPPLY set. -/
def execBatteryLowInactive (s : State) : Host.Outcome State Fault Refusal :=
  .next (if s.moc.batteryLow then settle (recordLine (fun m => { m with batteryLow := false }) s) else s)

/-- CONSISTENCY_CHECKS (R190). -/
def execConsistencyChecks (order : List Block) (s : State) : Host.Outcome State Fault Refusal :=
  .next (if s.mode = .checking ∧ s.moc.checksDue then settle (makeChecks order s) else s)

/-- ROLL_CALL_COMPLETION (R191). -/
def execRollCallCompletion (order : List Block) (s : State) : Host.Outcome State Fault Refusal :=
  .next (if s.mode = .checking ∧ s.rollCallComplete then settle (rollCallPassed order s) else s)

/-- ROLL_CALL_LIMIT_EXPIRY (R191). -/
def execRollCallLimitExpiry (order : List Block) (s : State) : Host.Outcome State Fault Refusal :=
  .next (if s.mode = .checking ∧ s.rollCallOver then settle (rollCallTimeout order s) else s)

end Sys2Proof.Machine
end

