-- ==== Sys2Proof/Machine/ThermalRequests.lean ====
section
/-! DEFINITION. The requests to TSU and the expiries of TSU's deadlines: PROBE_SET, THERMAL_SET, ROOM_TEMP_READ, PROBE_READ (R107,
R114, R119), grace end, mask end, stale alarm (R112) and the accrual interval (R115). -/

namespace Sys2Proof.Machine

/-- R107: the status that a change of the fitted flag gives. -/
def Probe.refit (x : Probe) (fitted coilSide : Bool) : Probe :=
  { x with
    fitted := fitted, coilSide := coilSide
    status := if x.fitted = fitted then x.status else if fitted then .silent else .absent }

/-- R107, R168: the flags are stored, the room temperature is derived again, and LPL takes the hub's new condition. -/
def setProbe (p : Fin 32) (fitted coilSide : Bool) (s : State) : State :=
  let hub := StationId.hub (probeRoom p)
  let t := s.updProbe p fun x => x.refit fitted coilSide
  let u := if (s.probe p).fitted && !fitted then clearAlarm .probeFault (.probe p) t else t
  configuredChanged hub (s.configured hub) (u.configured hub) (deriveRoom (probeRoom p) u)

/-- R107. -/
def probeSetReply (args : List Byte) (s : State) : Reply :=
  match args with
  | [p1, p0, fitted, coil] =>
    match readFin (num p1 p0) 32, readFlag fitted, readFlag coil with
    | some p, some fitted, some coil => done [] (setProbe p fitted coil s)
    | _, _, _ => .error .badArg
  | _ => .error .badArg

/-- R114. -/
def thermalSetReply (args : List Byte) (s : State) : Reply :=
  match args with
  | [r1, r0, l1, l0, g1, g0, m1, m0] =>
    match readFin (num r1 r0) 8 with
    | some r =>
      let limit := readTemp l1 l0
      if limit < -500 ∨ 500 < limit ∨ num g1 g0 < 60 ∨ 3600 < num g1 g0 ∨ 3600 < num m1 m0 then .error .badArg
      else done [] (s.updThermal r fun x => { x with limit := limit, grace := num g1 g0, mask := num m1 m0 })
    | none => .error .badArg
  | _ => .error .badArg

/-- R108: the fields of a room thermal record. -/
def RoomThermal.results (x : RoomThermal) : List Byte :=
  temp2 x.limit ++ num2 x.grace ++ num2 x.mask ++ temp2 x.temp ++ flag1 x.known ++ [x.state.byte] ++ optTime x.warmSince
    ++ optTime x.staleSince ++ flag1 x.staleRaised ++ time4 x.maskUntil

/-- R119: the results of ROOM_TEMP_READ. -/
def State.roomTempResults (s : State) (r : Fin 8) : List Byte :=
  (s.thermal r).results ++ flag1 (s.thermal r).coilExcluded
    ++ listOf (fun p => num2 p.1) ((roomProbes r).filter fun p => (s.probe p).counted) ++ time4 s.tsu.lastAccrual
    ++ optTime s.tsu.accrualDue

/-- R119: the results of PROBE_READ: the fields of R103, the room and the position. -/
def State.probeResults (s : State) (p : Fin 32) : List Byte :=
  let x := s.probe p
  flag1 x.fitted ++ flag1 x.coilSide ++ temp2 x.reading ++ [x.status.byte] ++ flag1 x.counted ++ num2 (probeRoom p).1
    ++ num2 (p.1 % 4)

/-- A deadline that the room's record holds has come, and the room is watched (R112). -/
def State.deadlineDue (s : State) (r : Fin 8) (f : RoomThermal → Option Time) : Bool :=
  s.watched r && (f (s.thermal r)).any fun t => decide (t ≤ s.now)

/-- The accrual interval has expired (R115). -/
def State.accrualOver (s : State) : Bool := s.tsu.accrualDue.any fun t => decide (t ≤ s.now)

/-! ## The rows -/

/-- PROBE_SET (50h). -/
def execProbeSet (s : State) : Host.Outcome State Fault Refusal := .next (handOff 0x50 probeSetReply s)

/-- THERMAL_SET (51h). -/
def execThermalSet (s : State) : Host.Outcome State Fault Refusal := .next (handOff 0x51 thermalSetReply s)

/-- ROOM_TEMP_READ (52h). -/
def execRoomTempRead (s : State) : Host.Outcome State Fault Refusal :=
  .next (handOff 0x52 (oneFin 8 fun r s => done (s.roomTempResults r) s) s)

/-- PROBE_READ (53h). -/
def execProbeRead (s : State) : Host.Outcome State Fault Refusal :=
  .next (handOff 0x53 (oneFin 32 fun p s => done (s.probeResults p) s) s)

/-- GRACE_END (R112). -/
def execGraceEnd (r : Fin 8) (s : State) : Host.Outcome State Fault Refusal :=
  .next (if s.deadlineDue r RoomThermal.graceEnd then settle (evaluateRoom r s) else s)

/-- MASK_END (R112). -/
def execMaskEnd (r : Fin 8) (s : State) : Host.Outcome State Fault Refusal :=
  .next (if s.deadlineDue r RoomThermal.maskEnd then settle (evaluateRoom r s) else s)

/-- STALE_ALARM_EXPIRY (R112). -/
def execStaleAlarmExpiry (r : Fin 8) (s : State) : Host.Outcome State Fault Refusal :=
  .next (if s.deadlineDue r RoomThermal.staleDue then settle (evaluateRoom r s) else s)

/-- ACCRUAL_INTERVAL_EXPIRY (R115). -/
def execAccrualIntervalExpiry (s : State) : Host.Outcome State Fault Refusal :=
  .next (if s.accrualOver then settle (accrualExpiry s) else s)

end Sys2Proof.Machine
end

