-- ==== Sys2Proof/Machine/Dispatch.lean ====
section
/-! DEFINITION. One arm for each command; each is one call of the command's meaning. -/

namespace Sys2Proof.Machine

def exec (i : Instr) (s : State) : Host.Outcome State Fault Refusal :=
  match i with
  | .exchangeBegin => Sys2Proof.Machine.execExchangeBegin s
  | .exchangeEnd received => Sys2Proof.Machine.execExchangeEnd received s
  | .unknownRequest => Sys2Proof.Machine.execUnknownRequest s
  | .readIdent => Sys2Proof.Machine.execReadIdent s
  | .readAttention => Sys2Proof.Machine.execReadAttention s
  | .attentionMask => Sys2Proof.Machine.execAttentionMask s
  | .siteSet => Sys2Proof.Machine.execSiteSet s
  | .startSite order => Sys2Proof.Machine.execStartSite order s
  | .stopSite order => Sys2Proof.Machine.execStopSite order s
  | .readMode => Sys2Proof.Machine.execReadMode s
  | .linkReset => Sys2Proof.Machine.execLinkReset s
  | .roomSet => Sys2Proof.Machine.execRoomSet s
  | .slotMapSet => Sys2Proof.Machine.execSlotMapSet s
  | .roomRead => Sys2Proof.Machine.execRoomRead s
  | .roomCount => Sys2Proof.Machine.execRoomCount s
  | .slotRead => Sys2Proof.Machine.execSlotRead s
  | .slotBlock => Sys2Proof.Machine.execSlotBlock s
  | .laneRead => Sys2Proof.Machine.execLaneRead s
  | .classSet => Sys2Proof.Machine.execClassSet s
  | .admission => Sys2Proof.Machine.execAdmit s
  | .findTag => Sys2Proof.Machine.execFindTag s
  | .palletRead => Sys2Proof.Machine.execPalletRead s
  | .census => Sys2Proof.Machine.execCensus s
  | .holdSet => Sys2Proof.Machine.execHoldSet s
  | .holdClear => Sys2Proof.Machine.execHoldClear s
  | .retire => Sys2Proof.Machine.execRetire s
  | .placeCorrect => Sys2Proof.Machine.execPlaceCorrect s
  | .move => Sys2Proof.Machine.execMove s
  | .moveBatch => Sys2Proof.Machine.execMoveBatch s
  | .moveCancel => Sys2Proof.Machine.execMoveCancel s
  | .moveRedirect => Sys2Proof.Machine.execMoveRedirect s
  | .moveRead => Sys2Proof.Machine.execMoveRead s
  | .moveCollect => Sys2Proof.Machine.execMoveCollect s
  | .dispatchHold => Sys2Proof.Machine.execDispatchHold s
  | .terminalSet => Sys2Proof.Machine.execTerminalSet s
  | .terminalRead => Sys2Proof.Machine.execTerminalRead s
  | .doorSet => Sys2Proof.Machine.execDoorSet s
  | .doorSeal => Sys2Proof.Machine.execDoorSeal s
  | .doorOpen => Sys2Proof.Machine.execDoorOpen s
  | .doorClose => Sys2Proof.Machine.execDoorClose s
  | .doorRelease => Sys2Proof.Machine.execDoorRelease s
  | .doorRead => Sys2Proof.Machine.execDoorRead s
  | .doorClearFault => Sys2Proof.Machine.execDoorClearFault s
  | .probeSet => Sys2Proof.Machine.execProbeSet s
  | .thermalSet => Sys2Proof.Machine.execThermalSet s
  | .roomTempRead => Sys2Proof.Machine.execRoomTempRead s
  | .probeRead => Sys2Proof.Machine.execProbeRead s
  | .evapSet => Sys2Proof.Machine.execEvapSet s
  | .defrostRequest => Sys2Proof.Machine.execDefrostRequest s
  | .defrostAbort => Sys2Proof.Machine.execDefrostAbort s
  | .evapRelease => Sys2Proof.Machine.execEvapRelease s
  | .evapRead => Sys2Proof.Machine.execEvapRead s
  | .alarmList => Sys2Proof.Machine.execAlarmList s
  | .alarmAck => Sys2Proof.Machine.execAlarmAck s
  | .alarmRead => Sys2Proof.Machine.execAlarmRead s
  | .alarmOverflowClear => Sys2Proof.Machine.execAlarmOverflowClear s
  | .laneRound lane => Sys2Proof.Machine.execLaneRound lane s
  | .missedPoll lane received => Sys2Proof.Machine.execMissedPoll lane received s
  | .doorStatus received => Sys2Proof.Machine.execDoorStatus received s
  | .probeSetReport received => Sys2Proof.Machine.execProbeSetReport received s
  | .controllerStatus received => Sys2Proof.Machine.execControllerStatus received s
  | .picked received => Sys2Proof.Machine.execPicked received s
  | .dropped received => Sys2Proof.Machine.execDropped received s
  | .abandon received => Sys2Proof.Machine.execAbandon received s
  | .submit received => Sys2Proof.Machine.execSubmit received s
  | .readyReport received => Sys2Proof.Machine.execReadyReport received s
  | .coldStart strap supplyFail batteryLow order => Sys2Proof.Machine.execColdStart strap supplyFail batteryLow order s
  | .warmRestart supplyFail batteryLow order => Sys2Proof.Machine.execWarmRestart supplyFail batteryLow order s
  | .supplyFailActive order => Sys2Proof.Machine.execSupplyFailActive order s
  | .supplyFailInactive order => Sys2Proof.Machine.execSupplyFailInactive order s
  | .batteryLowActive order => Sys2Proof.Machine.execBatteryLowActive order s
  | .batteryLowInactive => Sys2Proof.Machine.execBatteryLowInactive s
  | .consistencyChecks order => Sys2Proof.Machine.execConsistencyChecks order s
  | .rollCallCompletion order => Sys2Proof.Machine.execRollCallCompletion order s
  | .rollCallLimitExpiry order => Sys2Proof.Machine.execRollCallLimitExpiry order s
  | .dispatchRetryExpiry => Sys2Proof.Machine.execDispatchRetryExpiry s
  | .sealLimitExpiry door => Sys2Proof.Machine.execSealLimitExpiry door s
  | .leafTravelLimitExpiry door => Sys2Proof.Machine.execLeafTravelLimitExpiry door s
  | .unsealLimitExpiry door => Sys2Proof.Machine.execUnsealLimitExpiry door s
  | .openTimeWaitExpiry door => Sys2Proof.Machine.execOpenTimeWaitExpiry door s
  | .graceEnd room => Sys2Proof.Machine.execGraceEnd room s
  | .maskEnd room => Sys2Proof.Machine.execMaskEnd room s
  | .staleAlarmExpiry room => Sys2Proof.Machine.execStaleAlarmExpiry room s
  | .accrualIntervalExpiry => Sys2Proof.Machine.execAccrualIntervalExpiry s
  | .frostIntervalExpiry => Sys2Proof.Machine.execFrostIntervalExpiry s
  | .deferralExpiry evap => Sys2Proof.Machine.execDeferralExpiry evap s
  | .pumpdownDeadlineExpiry evap => Sys2Proof.Machine.execPumpdownDeadlineExpiry evap s
  | .maxHeatExpiry evap => Sys2Proof.Machine.execMaxHeatExpiry evap s
  | .dripDeadlineExpiry evap => Sys2Proof.Machine.execDripDeadlineExpiry evap s
  | .refreezeDeadlineExpiry evap => Sys2Proof.Machine.execRefreezeDeadlineExpiry evap s

end Sys2Proof.Machine
end

