-- ==== Sys2Proof/Safety.lean ====
section
/-! DEFINITION. What counts as a safe run, in the terms the statements use: a step that goes on, a request that its owner takes, an
answer that a lane's poll meets, and the bounds every state of a run keeps. -/

namespace Sys2Proof.Machine

/-! ## Steps -/

/-- The step from `s` goes on. -/
def StepSafe (s : State) : Prop := ∃ t, step s = .next t

/-- `k` steps from `s` all go on. -/
def RunSafe : Nat → State → Prop
  | 0, _ => True
  | k + 1, s => ∃ t, step s = .next t ∧ RunSafe k t

/-! ## Requests (R174, R175) -/

/-- LKP hands off `f` next, leaving `t`: it stands at the head and the answer queue has a place (R174). -/
structure AtHead (f : RequestFrame) (s t : State) : Prop where
  head : s.takeHead = some (f, t)
  ready : s.ready = true

/-- The owner of request code `code` takes the frame `f`: it is next and its code is available in the mode (R174, R175). -/
structure HandsOff (code : Byte) (f : RequestFrame) (s t : State) : Prop where
  next : AtHead f s t
  names : f.code = code
  allowed : ∃ g, groupOf code = some g ∧ g.refusal s.mode = none

/-- Request code `code` is available in the modes listed and in no other (R175). -/
def AvailableIn (code : Byte) (modes : List Mode) : Prop :=
  ∀ m, (∃ g, groupOf code = some g ∧ g.refusal m = none) ↔ m ∈ modes

/-- Every mode. -/
def allModes : List Mode := [.standby, .checking, .run, .holdover, .retain]

/-- The request code of a request's row (11.3); none for the other rows. -/
def requestCode : Instr → Option Byte
  | .readIdent => some 0x01 | .readAttention => some 0x02 | .attentionMask => some 0x03 | .siteSet => some 0x04
  | .startSite _ => some 0x05 | .stopSite _ => some 0x06 | .readMode => some 0x07 | .linkReset => some 0x08
  | .roomSet => some 0x10 | .slotMapSet => some 0x11 | .roomRead => some 0x12 | .roomCount => some 0x13
  | .slotRead => some 0x14 | .slotBlock => some 0x15 | .laneRead => some 0x16
  | .classSet => some 0x20 | .admission => some 0x21 | .findTag => some 0x22 | .palletRead => some 0x23
  | .census => some 0x24 | .holdSet => some 0x25 | .holdClear => some 0x26 | .retire => some 0x27
  | .placeCorrect => some 0x28
  | .move => some 0x30 | .moveBatch => some 0x31 | .moveCancel => some 0x32 | .moveRedirect => some 0x33
  | .moveRead => some 0x34 | .moveCollect => some 0x35 | .dispatchHold => some 0x36 | .terminalSet => some 0x37
  | .terminalRead => some 0x38
  | .doorSet => some 0x40 | .doorSeal => some 0x41 | .doorOpen => some 0x42 | .doorClose => some 0x43
  | .doorRelease => some 0x44 | .doorRead => some 0x45 | .doorClearFault => some 0x46
  | .probeSet => some 0x50 | .thermalSet => some 0x51 | .roomTempRead => some 0x52 | .probeRead => some 0x53
  | .evapSet => some 0x60 | .defrostRequest => some 0x61 | .defrostAbort => some 0x62 | .evapRelease => some 0x63
  | .evapRead => some 0x64
  | .alarmList => some 0x70 | .alarmAck => some 0x71 | .alarmRead => some 0x72 | .alarmOverflowClear => some 0x73
  | _ => none

/-- The length of a request's argument list, where its fields have fixed widths (11.2); none for the other rows. -/
def argLength : Instr → Option Nat
  | .readIdent => some 0 | .readAttention => some 1 | .attentionMask => some 1 | .siteSet => some 8 | .startSite _ => some 0
  | .stopSite _ => some 0 | .readMode => some 0 | .linkReset => some 0
  | .roomSet => some 3 | .slotMapSet => some 17 | .roomRead => some 2 | .roomCount => some 2 | .slotRead => some 2
  | .slotBlock => some 3 | .laneRead => some 2
  | .classSet => some 10 | .admission => some 10 | .findTag => some 7 | .palletRead => some 2 | .holdSet => some 3
  | .holdClear => some 3 | .retire => some 2 | .placeCorrect => some 4
  | .move => some 5 | .moveCancel => some 5 | .moveRedirect => some 4 | .moveRead => some 2 | .moveCollect => some 0
  | .dispatchHold => some 2 | .terminalSet => some 3 | .terminalRead => some 2
  | .doorSet => some 7 | .doorSeal => some 9 | .doorOpen => some 2 | .doorClose => some 3 | .doorRelease => some 2
  | .doorRead => some 2 | .doorClearFault => some 2
  | .probeSet => some 4 | .thermalSet => some 8 | .roomTempRead => some 2 | .probeRead => some 2
  | .evapSet => some 25 | .defrostRequest => some 2 | .defrostAbort => some 2 | .evapRelease => some 2 | .evapRead => some 2
  | .alarmList => some 2 | .alarmAck => some 4 | .alarmRead => some 4 | .alarmOverflowClear => some 0
  | _ => none

/-- Where a request's arguments begin with the number of a room, lane, class, terminal, door, probe, evaporator or alarm position:
one more than the greatest such number. -/
def numberLimit : Instr → Option Nat
  | .roomSet | .roomRead | .roomCount | .thermalSet | .roomTempRead => some 8
  | .laneRead | .doorSet | .doorSeal | .doorOpen | .doorClose | .doorRelease | .doorRead | .doorClearFault => some 24
  | .classSet | .terminalSet | .terminalRead => some 16
  | .probeSet | .probeRead => some 32
  | .evapSet | .defrostRequest | .defrostAbort | .evapRelease | .evapRead => some 12
  | .alarmList => some 64
  | _ => none

/-- The outcome of a request answered with `rc` and `results`, the owner's changes being those of `u`: the answer joins the tail of the
answer queue, and the MOVE cause and the retry interval follow the state (R59, R174, R177). -/
def answered (f : RequestFrame) (rc : ResultCode) (results : List Byte) (u : State) : Host.Outcome State Fault Refusal :=
  .next (settle (pushAnswer f rc results u))

/-- The outcome of a request refused with `rc`: its answer has no results, and nothing else changes (R174, 5.5). -/
def refusedWith (f : RequestFrame) (rc : ResultCode) (t : State) : Host.Outcome State Fault Refusal :=
  .next (pushAnswer f rc [] t)

/-! ## Answers on a lane (R160) -/

/-- The bytes `received` on the lane of station `st` are a good answer, with report `rep`, to the poll in flight there, and the station
is HEARD. -/
structure Answers (st : StationId) (rep : Report) (received : List Byte) (s : State) : Prop where
  polled : (s.laneRec st.lane).position = some st
  good : judgeAnswer st (s.station st).seqNo received = some rep
  heard : (s.station st).link = .heard

/-- The row of a report's kind (R165). -/
def Report.row : Report → List Byte → Instr
  | .door _ => .doorStatus
  | .probes .. => .probeSetReport
  | .controller _ => .controllerStatus
  | .picked .. => .picked
  | .dropped _ => .dropped
  | .abandon _ => .abandon
  | .submit _ => .submit
  | .ready _ => .readyReport

/-- The outcome of a good answer whose report left `u`: the lane's next poll goes out (R160). -/
def reported (l : Lane) (u : State) : Host.Outcome State Fault Refusal := .next (settle (pollEnded l u))

/-- The report's numbers fit their fields on the lane (R204). -/
def Report.fits : Report → Prop
  | .door _ => True
  | .probes a b c d => ∀ x ∈ [a, b, c, d], -32768 ≤ x.reading ∧ x.reading ≤ 32767
  | .controller r => -32768 ≤ r.coil ∧ r.coil ≤ 32767
  | .picked _ p => 8192 ≤ p ∧ p < 57344
  | .dropped p => 8192 ≤ p ∧ p < 57344
  | .abandon r => r < 256
  | .submit _ => True
  | .ready _ => True

/-! ## Bounds -/

/-- The sparse tables are in their one canonical form. -/
def TablesCanonical (s : State) : Prop :=
  swf .free s.pdr.slots = true ∧ swf {} s.ctb.entries = true ∧ swf {} s.mds.entries = true

/-- The link's queues and its discard count are within R172, R173 and R176. -/
def LinkBounded (s : State) : Prop :=
  s.lkp.urgent.length ≤ 8 ∧ s.lkp.normal.length ≤ 24 ∧ s.lkp.answers.length ≤ 16 ∧ s.lkp.discards ≤ 255

/-- The MOVE cause is pending exactly while the finished list is not empty (R177). -/
def MoveCauseTrue (s : State) : Prop := s.lkp.pendingCauses.move = !s.mds.finished.isEmpty

/-- The retry interval runs exactly under the condition of R59. -/
def RetryTrue (s : State) : Prop := s.mds.retryDue.isSome = s.retryWanted

/-- The alarm table is within R145: at most 64 records, one for a pair, raise counts 1 to 255, unlisted count at most 255. -/
def AlarmsBounded (s : State) : Prop :=
  s.alt.records.length ≤ 64 ∧ s.alt.unlisted ≤ 255 ∧ (∀ r ∈ s.alt.records, 1 ≤ r.count ∧ r.count ≤ 255)
    ∧ s.alt.records.Pairwise fun a b => ¬(a.kind = b.kind ∧ a.subject = b.subject)

/-- Members plus reservations of a lane never exceed 6 (R4). -/
def LanesBounded (s : State) : Prop := ∀ d, (s.stagingLane d).load ≤ 6

/-- The site clock is within 32 bits (R188). -/
def ClockBounded (s : State) : Prop := s.moc.clock ≤ 4294967295

/-- The heater allowance is 1 to 4 and at least the number of its holders (R128). -/
def AllowanceBounded (s : State) : Prop := 1 ≤ s.dfc.allowance ∧ s.dfc.allowance ≤ 4 ∧ s.allowanceUsed ≤ s.dfc.allowance

/-- The consistency checks and the roll call limit belong to CHECKING alone (R190, R191). -/
def ChecksInChecking (s : State) : Prop :=
  (s.moc.checksDue = true → s.moc.mode = .checking) ∧ (s.moc.rollCallDue.isSome = true → s.moc.mode = .checking)

/-- Frost loads are at most 1000 (R125) and exposures at most 65535 (R42). -/
def LoadsBounded (s : State) : Prop :=
  (∀ e, (s.evap e).frost ≤ 1000) ∧ ∀ h p, s.pallet? h = some p → p.exposure ≤ 65535

end Sys2Proof.Machine
end

