-- ==== Sys2Proof/Certificates/Slice0/Obligations.lean ====
section
/-! DEFINITION. The statements for the provers. A statement that rests on a log entry says so. -/

section
open Sys2Proof Sys2Proof.Machine

/-- A step takes the command at the front of the queue and runs it with the rest (the model's queue of commands). -/
def Obligations.StepRunsTheFrontCommand : Prop :=
  ∀ (c : Instr) (rest : List Instr) (s : State), s.pending = c :: rest → step s = exec c (s.withPending rest)

/-- On an empty queue one second passes (log entry 1): the site clock (R188) and the time base, and nothing else. -/
def Obligations.IdleStepIsOneSecond : Prop :=
  ∀ s : State, s.pending = [] →
    step s = .next ((s.withMoc { s.moc with
      clock := if s.moc.clock < 4294967295 then s.moc.clock + 1 else s.moc.clock }).withTimeBase (s.timeBase + 1))

/-- Nothing that is sent stops the part. The queue of commands is the model's (log entry 1). -/
def Obligations.EveryStepGoesOn : Prop :=
  (∀ s : State, StepSafe s) ∧ ∀ (c : Instr) (s : State), ∃ t, exec c s = .next t ∧ t.pending = s.pending

/-- R186 with the values-after-reset tables R19, R45, R76, R102, R120, R144, R157, R170, R183 and R197, field by field. The values
of the fields that are the model's own are log entries 20, 26, 43 and 55. -/
def Obligations.ColdStartLeavesTheStatedValues : Prop :=
  (∀ (strap : Strap) (order : List Block) (s : State), ∃ t : State,
    exec (.coldStart strap false false order) s = .next t ∧ t.pending = s.pending ∧ t.freeDraws = s.freeDraws ∧ t.timeBase = 0
    ∧ (∀ r, t.kind r = .unused ∧ t.pdr.ending.get r = 0 ∧ t.floor r = []) ∧ (∀ n, t.slot n = .free)
    ∧ (∀ d, t.stagingLane d = { members := [], reserved := 0 } ∧ t.doorPallets d = [])
    ∧ (∀ c, t.cls c = { limit := 0, budget := 0, excess := 0, preferred := 0 })
    ∧ (∀ i, t.entry i = { gen := 0, rec? := none }) ∧ (∀ i, t.orderEntry i = { gen := 0, rec? := none })
    ∧ t.mds.finished = [] ∧ t.mds.retryDue = none
    ∧ (∀ k, t.terminal k =
      { enabled := false, state := .disabled, bound := none, handsFull := false, dispatchHold := false, idleSince := 0
        revokeDue := none })
    ∧ (∀ d, t.door d =
      { room := 0, openLimit := 900, inService := false, state := .vacant, fault := none, remembered := none
        last := { leaf := .unknown, sealOk := false, trailer := false, stationFault := 0 }
        outcome := .none, stateSince := 0, openSince := none, closeCompleted := 0, useList := [], session := none
        openWaitDue := none })
    ∧ (∀ r, t.hold r = { claims := [], state := .none })
    ∧ (∀ p, t.probe p = { fitted := false, coilSide := false, reading := 0, status := .absent, counted := false })
    ∧ (∀ r, t.thermal r =
      { limit := 0, grace := 600, mask := 1200, temp := 0, known := false, state := .unwatched, warmSince := none
        staleSince := none, staleRaised := false, maskUntil := 0, coilExcluded := false, graceEnd := none, maskEnd := none
        staleDue := none })
    ∧ t.tsu.lastAccrual = 0 ∧ t.tsu.accrualDue = none
    ∧ (∀ e, t.evap e =
      { cfg :=
          { configured := false, room := 0, pumpdown := 120, maxHeat := 1800, termination := 100, drip := 180, refreeze := 300
            fanStart := -50, deferral := 45, baseRate := 0, doorRate := 0, portalRate := 0 }
        phase := .idle, frost := 0, forced := false, demandSince := none, phaseSince := 0, deadline := none, extensions := 0
        allowanceHeld := false, holdConfirmed := false, heatTerminated := false, lost := false
        last := { phase := .run, coil := 0, heaterOn := false, extension := false }
        deferralDue := none, terminationInUse := 100, fanStartInUse := -50 })
    ∧ t.dfc.allowance = 2 ∧ t.dfc.frostDue = none ∧ t.alt.records = [] ∧ t.alt.unlisted = 0
    ∧ (∀ l, (t.laneRec l).polling = .stopped ∧ (t.laneRec l).position = none ∧ (t.laneRec l).todo = [])
    ∧ (∀ st, t.station st = { link := .unconfirmed, missed := 0, seqNo := 0, slot := none, slotSent := false })
    ∧ t.lkp.urgent = [] ∧ t.lkp.normal = [] ∧ t.lkp.answers = [] ∧ t.lkp.pendingCauses = { link := true } ∧ t.lkp.masks = {}
    ∧ t.lkp.doorSet = [] ∧ t.lkp.defrostSet = [] ∧ t.lkp.roomSet = [] ∧ t.lkp.exchange = none ∧ t.lkp.shifted = []
    ∧ t.lkp.reasons = { coldStart := true } ∧ t.lkp.discards = 0 ∧ t.ready = true ∧ t.attn = true
    ∧ t.moc =
      { mode := .standby, modeSince := 0, stoppedAt := none, remembered := none, strap := strap, selfCheck := .none
        rollCounts := Vector.replicate 4 0, supplyFail := false, batteryLow := false, rollCallDue := none, checksDue := false
        clock := 0 })
  ∧ ∀ (strap : Strap) (order : List Block) (s t : State), exec (.coldStart strap false false order) s = .next t →
    exec (.coldStart strap true false order) s = exec (.supplyFailActive order) t
    ∧ exec (.coldStart strap false true order) s = exec (.batteryLowActive order) t
    ∧ ∀ u, exec (.batteryLowActive order) t = .next u →
      exec (.coldStart strap true true order) s = exec (.supplyFailActive order) u

/-- The invariants of this file hold at reset. -/
def Obligations.ResetKeepsTheBounds : Prop :=
  TablesCanonical State.reset ∧ LinkBounded State.reset ∧ MoveCauseTrue State.reset ∧ AlarmsBounded State.reset
    ∧ LanesBounded State.reset ∧ ClockBounded State.reset ∧ AllowanceBounded State.reset ∧ ChecksInChecking State.reset
    ∧ RetryTrue State.reset ∧ LoadsBounded State.reset

/-- The three sparse tables stay in canonical form, so that equal tables are equal data. -/
def Obligations.StepsKeepTablesCanonical : Prop :=
  ∀ s t : State, TablesCanonical s → step s = .next t → TablesCanonical t

/-- R172, R173, R176: 8 urgent requests, 24 normal requests, 16 answers and 255 discards are never exceeded. -/
def Obligations.StepsKeepLinkBounds : Prop :=
  ∀ s t : State, LinkBounded s → step s = .next t → LinkBounded t

/-- R177: the MOVE cause is pending exactly while the finished list holds an order; no step, READ_ATTENTION and resets included,
leaves it otherwise. READ_ATTENTION returns it with the number of finished orders and the flag bytes (R179, R199) and does not clear
it; that the number has two bytes is log entry 6. -/
def Obligations.StepsKeepMoveCauseTrue : Prop :=
  (∀ s t : State, MoveCauseTrue s → step s = .next t → MoveCauseTrue t)
  ∧ (∀ (strap : Strap) (sf bl : Bool) (order : List Block) (s t : State),
      (exec (.coldStart strap sf bl order) s = .next t ∨ exec (.warmRestart sf bl order) s = .next t
        ∨ ∃ f u, HandsOff 0x08 f s u ∧ f.args = [] ∧ exec .linkReset s = .next t) → MoveCauseTrue t)
  ∧ (∀ (f : RequestFrame) (s t : State), HandsOff 0x02 f s t → f.args = [0x05#8] → MoveCauseTrue s →
      exec .readAttention s =
        answered f .ok ([0x05#8] ++ be 2 s.mds.finished.length ++ [s.lkp.pendingCauses.byte, s.lkp.masks.byte]) t)

/-- R145, R149: at most 64 records, one for a pair, raise counts 1 to 255, unlisted count at most 255. -/
def Obligations.StepsKeepAlarmBounds : Prop :=
  ∀ s t : State, AlarmsBounded s → step s = .next t → AlarmsBounded t

/-- R4: for every lane, the number of members plus the reservation count never exceeds 6. -/
def Obligations.StepsKeepLaneCapacity : Prop :=
  ∀ s t : State, LanesBounded s → step s = .next t → LanesBounded t

/-- R128: the number of evaporators holding heater allowance never exceeds the configured heater allowance, which is 1 to 4. -/
def Obligations.StepsKeepHeaterAllowance : Prop :=
  ∀ s t : State, AllowanceBounded s → step s = .next t → AllowanceBounded t

/-- R188: the clock is within 32 bits. R190, R191, R193: the checks and the roll call limit belong to CHECKING. R59: the retry
interval runs in RUN while a terminal is waiting and an order is QUEUED (judged at the end of a step, log entry 14). -/
def Obligations.StepsKeepClockChecksAndRetry : Prop :=
  (∀ s t : State, ClockBounded s → step s = .next t → ClockBounded t)
  ∧ (∀ s t : State, ChecksInChecking s → step s = .next t → ChecksInChecking t)
  ∧ ∀ s t : State, RetryTrue s → step s = .next t → RetryTrue t

/-- R125, R126: frost saturates at 1000. R42, R43: exposure saturates at 65535. -/
def Obligations.StepsKeepLoads : Prop :=
  ∀ s t : State, TablesCanonical s → LoadsBounded s → step s = .next t → LoadsBounded t

/-- R44: no step lowers the exposure of a live record, and ADMIT starts it at 0. Exposures are within their 16 bits before the step. -/
def Obligations.ExposureNeverDecreases : Prop :=
  (∀ (s t : State) (h : Handle) (p q : Pallet), TablesCanonical s → LoadsBounded s → step s = .next t →
    s.pallet? h = some p → t.pallet? h = some q → p.exposure ≤ q.exposure)
  ∧ (∀ (s t : State) (h : Handle) (q : Pallet), TablesCanonical s → exec .admission s = .next t →
    s.pallet? h = none → t.pallet? h = some q → q.exposure = 0)

/-- R172, R198, R200, 11.2: which received bytes are a request frame, which a fill frame, and which fail the checks; bytes after the
check are ignored. R160, R204, 11.6: which bytes are a good answer; every other answer is refused. -/
def Obligations.FramesAndAnswersReadBack : Prop :=
  (∀ (bs : List Byte) (urgent : Bool) (f : RequestFrame),
    judgeFrame bs = .request urgent f ↔ f.args.length ≤ 200 ∧ ∃ extra, bs = f.bytes urgent ++ extra)
  ∧ (∀ bs : List Byte, judgeFrame bs = .fill ↔ bs = [] ∨ ∃ rest, bs = 0x00#8 :: rest ∨ bs = 0xFF#8 :: rest)
  ∧ (∀ (b : Byte) (rest : List Byte), b ≠ 0x00#8 → b ≠ 0xFF#8 → b ≠ 0xA5#8 → judgeFrame (b :: rest) = .bad)
  ∧ (∀ rest : List Byte, rest.length < 6 → judgeFrame (0xA5#8 :: rest) = .bad)
  ∧ (∀ (tag urgency code n : Byte) (more : List Byte),
    let head : List Byte := [0xA5#8, tag, urgency, code, n]
    (urgency ≠ 0#8 → urgency ≠ 1#8 → judgeFrame (head ++ more) = .bad)
    ∧ (200 < n.toNat → judgeFrame (head ++ more) = .bad)
    ∧ (more.length < n.toNat + 2 → judgeFrame (head ++ more) = .bad)
    ∧ ((more.drop n.toNat).take 2 ≠ be 2 (crc (head ++ more.take n.toNat)).toNat → judgeFrame (head ++ more) = .bad))
  ∧ (∀ (st : StationId) (seqNo : Byte) (bs : List Byte) (rep : Report),
    judgeAnswer st seqNo bs = some rep ↔ rep.lane = st.lane ∧ rep.fits ∧ bs = answerBytes st seqNo rep)
  ∧ ∀ (st : StationId) (seqNo : Byte) (body : List Byte) (c1 c0 : Byte),
    ([c1, c0] ≠ be 2 (crc body).toNat → judgeAnswer st seqNo (body ++ [c1, c0]) = none)
    ∧ ∀ (addr q kind len : Byte) (contents : List Byte), body = [addr, q, kind, len] ++ contents →
      (addr.toNat ≠ st.address ∨ q ≠ seqNo ∨ len.toNat ≠ contents.length ∨ readReport st.lane kind contents = none →
        judgeAnswer st seqNo (body ++ [c1, c0]) = none)

/-- R171: the beginning of an exchange, and its frame. R171, R172: the end of an exchange `x` in progress; `u` is the state after the
delivery, with the bytes that were shifted out: the frame's, then 00h (11.2) for as long as the host went on clocking (their record is
log entry 43). A beginning within an exchange and an end without one are no events (log entry 2). -/
def Obligations.ExchangesDeliverAndJudge : Prop :=
  (∀ s : State, s.lkp.exchange = none →
    let out : List Byte :=
      match s.lkp.answers with
      | a :: _ => a.bytes
      | [] => idleBytes (s.lkp.pendingCauses.shown s.lkp.masks).byte s.lkp.urgent.length s.lkp.normal.length
    let x : Exchange := { ready := decide (s.lkp.answers.length < 16), out := out, answer := !s.lkp.answers.isEmpty }
    exec .exchangeBegin s = .next (s.withLkp { s.lkp with exchange := some x }))
  ∧ (∀ (s : State) (x : Exchange), s.lkp.exchange = some x → exec .exchangeBegin s = .next s) ∧
  (∀ (s : State) (bs : List Byte), s.lkp.exchange = none → exec (.exchangeEnd bs) s = .next s)
  ∧ ∀ (s u : State) (x : Exchange) (bs : List Byte), s.lkp.exchange = some x →
    u = s.withLkp { s.lkp with
      exchange := none
      shifted := (List.range bs.length).map fun k => x.out.getD k 0x00#8
      answers := if x.answer = true ∧ x.out.length ≤ bs.length then s.lkp.answers.tail else s.lkp.answers } →
    let discard (reasons : LinkReasons) : Host.Outcome State Fault Refusal :=
      .next (u.withLkp { u.lkp with
        pendingCauses := { u.lkp.pendingCauses with link := true }
        reasons := reasons, discards := min 255 (u.lkp.discards + 1) })
    (judgeFrame bs = .fill → exec (.exchangeEnd bs) s = .next u)
    ∧ (judgeFrame bs ≠ .fill → x.ready = false → exec (.exchangeEnd bs) s = discard { u.lkp.reasons with notReady := true })
    ∧ (judgeFrame bs = .bad → x.ready = true → exec (.exchangeEnd bs) s = discard { u.lkp.reasons with frame := true })
    ∧ ∀ f : RequestFrame, x.ready = true →
      (judgeFrame bs = .request true f → u.lkp.urgent.length < 8 →
        exec (.exchangeEnd bs) s = .next (u.withLkp { u.lkp with urgent := u.lkp.urgent ++ [f] }))
      ∧ (judgeFrame bs = .request false f → u.lkp.normal.length < 24 →
        exec (.exchangeEnd bs) s = .next (u.withLkp { u.lkp with normal := u.lkp.normal ++ [f] }))
      ∧ ((judgeFrame bs = .request true f ∧ 8 ≤ u.lkp.urgent.length)
          ∨ (judgeFrame bs = .request false f ∧ 24 ≤ u.lkp.normal.length) →
        (u.lkp.answers.length < 16 → exec (.exchangeEnd bs) s = .next (u.withLkp { u.lkp with
          answers := u.lkp.answers ++ [{ tag := f.tag, code := f.code, result := .queueFull, results := [] }] }))
        ∧ (16 ≤ u.lkp.answers.length → exec (.exchangeEnd bs) s = discard { u.lkp.reasons with notReady := true }))

/-- R174: the head of the queues, and step 1 of its decision. -/
def Obligations.UnknownRequestAnswered : Prop :=
  (∀ (s : State) (f : RequestFrame) (rest : List RequestFrame), s.lkp.urgent = f :: rest →
    s.takeHead = some (f, s.withLkp { s.lkp with urgent := rest }))
  ∧ (∀ (s : State) (f : RequestFrame) (rest : List RequestFrame), s.lkp.urgent = [] → s.lkp.normal = f :: rest →
    s.takeHead = some (f, s.withLkp { s.lkp with normal := rest }))
  ∧ (∀ code : Byte, groupOf code = none ↔ ∀ c, requestCode c ≠ some code)
  ∧ ∀ (f : RequestFrame) (s t : State), AtHead f s t → groupOf f.code = none →
    exec .unknownRequest s = refusedWith f .unknownRequest t

/-- R174, step 2, with the table of R175, for all 53 request rows. -/
def Obligations.UnavailableRequestAnswered : Prop :=
  ∀ (c : Instr) (code : Byte) (f : RequestFrame) (s t : State) (g : Group) (rc : ResultCode), requestCode c = some code →
    AtHead f s t → f.code = code → groupOf code = some g → g.refusal s.mode = some rc →
    (rc = .mode ∨ rc = .supply) ∧ (rc = .supply ↔ s.mode = .holdover ∨ s.mode = .retain) ∧ exec c s = refusedWith f rc t

/-- R181, with the argument rule of R200. -/
def Obligations.ReadIdentAnswers : Prop :=
  AvailableIn 0x01 allModes
  ∧ ∀ (f : RequestFrame) (s t : State), HandsOff 0x01 f s t →
    (f.args = [] → exec .readIdent s = answered f .ok [0x0A#8, 0x7D#8, 0x24#8, 0x08#8, 0x01#8] t)
    ∧ (f.args ≠ [] → exec .readIdent s = refusedWith f .badArg t)

/-- R180, R199: bit k of the argument masks cause k; bit 7 is unused (R200). -/
def Obligations.AttentionMaskReplacesMasks : Prop :=
  AvailableIn 0x03 allModes
  ∧ (∀ (f : RequestFrame) (s t u : State) (b : Byte), HandsOff 0x03 f s t → f.args = [b] → b.getLsbD 7 = false →
    u = t.withLkp { t.lkp with masks :=
      { supply := b.getLsbD 0, alarm := b.getLsbD 1, door := b.getLsbD 2, defrost := b.getLsbD 3, move := b.getLsbD 4,
        room := b.getLsbD 5, link := b.getLsbD 6 } } →
    exec .attentionMask s = answered f .ok [t.lkp.masks.byte] u
    ∧ (u.attn = true ↔ ∃ c : Cause, t.lkp.pendingCauses.get c = true ∧ u.lkp.masks.get c = false))
  ∧ (∀ (f : RequestFrame) (s t : State), HandsOff 0x03 f s t → (∀ b, f.args = [b] → b.getLsbD 7 = true) →
    exec .attentionMask s = refusedWith f .badArg t)
  ∧ ∀ (strap : Strap) (sf bl : Bool) (order : List Block) (s t : State),
    exec (.coldStart strap sf bl order) s = .next t ∨ exec (.warmRestart sf bl order) s = .next t → t.lkp.masks = {}

/-- R176, R177, R179, R199. The causes stand in priority order; contents are a changed set, the LINK reasons and discard count, or the
number of finished orders. The widths of the contents are log entries 5 and 6, and that a code past 07h is BAD_ARG log entry 7. -/
def Obligations.ReadAttentionReturnsAndClears : Prop :=
  AvailableIn 0x02 allModes
  ∧ (∀ (f : RequestFrame) (s t : State), HandsOff 0x02 f s t →
    let flags : List Byte := [t.lkp.pendingCauses.byte, t.lkp.masks.byte]
    (∀ c : Cause, f.args = [c.byte] ∨ (f.args = [0#8] ∧ t.topCause = some c) →
      exec .readAttention s = answered f .ok ([c.byte] ++ t.causeContents c ++ flags) (clearCause c t))
    ∧ (f.args = [0#8] → t.topCause = none → exec .readAttention s = answered f .ok ([0#8] ++ flags) t)
    ∧ (∀ b, f.args = [b] → 7 < b.toNat → exec .readAttention s = refusedWith f .badArg t))
  ∧ (∀ t : State,
    let live (c : Cause) : Prop := t.lkp.pendingCauses.get c = true ∧ t.lkp.masks.get c = false
    (∀ c : Cause, t.topCause = some c ↔ live c ∧ ∃ above below : List Cause,
      [Cause.supply, .alarm, .door, .defrost, .move, .room, .link] = above ++ c :: below ∧ ∀ k ∈ above, ¬live k)
    ∧ (t.topCause = none ↔ ∀ c, ¬live c))
  ∧ (∀ t : State,
    let on (c : Cause) : Bool := t.lkp.pendingCauses.get c
    t.causeContents .supply = [] ∧ t.causeContents .alarm = []
    ∧ t.causeContents .door = listOf (fun d : Fin 24 => be 2 d.1) (if on .door then t.lkp.doorSet else [])
    ∧ t.causeContents .defrost = listOf (fun e : Fin 12 => be 2 e.1) (if on .defrost then t.lkp.defrostSet else [])
    ∧ t.causeContents .room = listOf (fun r : Fin 8 => be 2 r.1) (if on .room then t.lkp.roomSet else [])
    ∧ t.causeContents .move = be 2 (if on .move then t.mds.finished.length else 0)
    ∧ t.causeContents .link =
      [if on .link then t.lkp.reasons.byte else 0#8] ++ be 2 (if on .link then t.lkp.discards else 0))
  ∧ ∀ t : State,
    (∀ c : Cause, c ≠ .move → (clearCause c t).lkp.pendingCauses.get c = false
      ∧ ∀ k : Cause, k ≠ c → (clearCause c t).lkp.pendingCauses.get k = t.lkp.pendingCauses.get k)
    ∧ clearCause .move t = t ∧ (clearCause .door t).lkp.doorSet = [] ∧ (clearCause .defrost t).lkp.defrostSet = []
    ∧ (clearCause .room t).lkp.roomSet = [] ∧ (clearCause .link t).lkp.reasons = {} ∧ (clearCause .link t).lkp.discards = 0

/-- R182, R183: LINK_RESET; an exchange in progress goes on shifting out the frame it began with, and delivers no answer (log entry
49). That its own frame is not among the requests counted is log entry 30, and that each count takes two bytes log entry 6. -/
def Obligations.LinkResetClearsLink : Prop :=
  AvailableIn 0x08 allModes
  ∧ ∀ (f : RequestFrame) (s t : State), HandsOff 0x08 f s t → f.args = [] →
    exec .linkReset s = answered f .ok
      (be 2 (t.lkp.urgent.length + t.lkp.normal.length) ++ be 2 t.lkp.answers.length)
      (t.withLkp
        { urgent := [], normal := [], answers := [], pendingCauses := { link := true }, masks := {}, doorSet := []
          defrostSet := [], roomSet := [], reasons := { linkReset := true }, discards := 0
          exchange := t.lkp.exchange.map fun x => { x with answer := false }, shifted := t.lkp.shifted })

/-- R13, R14; available in STANDBY alone (R175). A kind byte above 03h has no kind (R201). The count byte before the endings is log
entry 6. -/
def Obligations.RoomRequestsConfigure : Prop :=
  AvailableIn 0x10 [.standby] ∧ AvailableIn 0x11 [.standby]
  ∧ (∀ (f : RequestFrame) (s t : State) (n k : Byte) (rest : List Byte),
    (HandsOff 0x10 f s t → f.args = rest ++ [k] → 3 < k.toNat → exec .roomSet s = refusedWith f .badArg t)
    ∧ (HandsOff 0x11 f s t → f.args = n :: rest → n ≠ 8#8 → exec .slotMapSet s = refusedWith f .badArg t))
  ∧ (∀ (f : RequestFrame) (s t : State) (r : Fin 8) (k : RoomKind), HandsOff 0x10 f s t → f.args = be 2 r.1 ++ [k.byte] →
    (t.kind r = k → exec .roomSet s = answered f .ok [] t)
    ∧ (t.kind r ≠ k → t.roomOccupied r = true → exec .roomSet s = refusedWith f .occupied t)
    ∧ (t.kind r ≠ k → t.roomOccupied r = false → exec .roomSet s = answered f .ok []
        (evaluateRoom r (t.withPdr { t.pdr with kind := upd t.pdr.kind r fun _ => k }))))
  ∧ ∀ (f : RequestFrame) (s t : State) (a b c d e g h i : Nat), HandsOff 0x11 f s t →
    f.args = [8#8] ++ be 2 a ++ be 2 b ++ be 2 c ++ be 2 d ++ be 2 e ++ be 2 g ++ be 2 h ++ be 2 i →
    (∀ x ∈ [a, b, c, d, e, g, h, i], x < 65536) →
    let ok : Prop := a ≤ b ∧ b ≤ c ∧ c ≤ d ∧ d ≤ e ∧ e ≤ g ∧ g ≤ h ∧ h ≤ i ∧ i ≤ 4096
    (¬ok → exec .slotMapSet s = refusedWith f .badArg t)
    ∧ (ok → t.mapDisturbs #v[a, b, c, d, e, g, h, i] = true → exec .slotMapSet s = refusedWith f .occupied t)
    ∧ (ok → t.mapDisturbs #v[a, b, c, d, e, g, h, i] = false → exec .slotMapSet s = answered f .ok []
        (t.withPdr { t.pdr with
          ending := #v[a, b, c, d, e, g, h, i]
          slots := t.pdr.slots.filter fun x => (roomOfSlotIn #v[a, b, c, d, e, g, h, i] x.1).isSome }))

/-- R15: the two reads of a room. That a listed lane's usable flag stands right after its number is log entry 6. -/
def Obligations.RoomReadsAnswer : Prop :=
  (∀ (f : RequestFrame) (s t : State) (r : Fin 8), f.args = be 2 r.1 →
    (HandsOff 0x12 f s t → exec .roomRead s = answered f .ok
      ([(t.kind r).byte] ++ be 2 (t.firstSlot r) ++ be 2 (t.pdr.ending.get r) ++ be 2 (t.slotCount r) ++ be 2 (t.floor r).length
        ++ listOf (fun d : Fin 24 => be 2 d.1 ++ flag1 (t.laneUsable d))
          ((List.finRange 24).filter fun d => (t.door d).room = r)) t)
    ∧ (HandsOff 0x13 f s t → exec .roomCount s = answered f .ok
      (be 2 (t.countSlots r SlotState.isOccupied) ++ be 2 (t.countSlots r SlotState.isReserved)
        ++ be 2 (t.countSlots r SlotState.isBlocked) ++ optField 2 ((t.lowestFree r).map fun n => be 2 n.1)) t))
  ∧ ∀ (f : RequestFrame) (s t : State) (n : Nat), 8 ≤ n → n < 65536 → f.args = be 2 n →
    (HandsOff 0x12 f s t → exec .roomRead s = refusedWith f .badArg t)
    ∧ (HandsOff 0x13 f s t → exec .roomCount s = refusedWith f .badArg t)

/-- R16: the reads of a slot and a lane. A state without a reference carries FFFFh (log entry 6). -/
def Obligations.SlotAndLaneReadsAnswer : Prop :=
  (∀ (f : RequestFrame) (s t : State) (n : Nat), HandsOff 0x14 f s t → f.args = be 2 n → n < 65536 →
    (∀ r, n < 4096 → t.roomOfSlot n = some r → exec .slotRead s = answered f .ok
      (be 2 r.1 ++ (match t.slot n with
        | .free => [0#8] ++ be 2 0xFFFF
        | .reserved o => [1#8] ++ be 2 o.code
        | .occupied h => [2#8] ++ be 2 h.code
        | .blocked => [3#8] ++ be 2 0xFFFF)) t)
    ∧ (4096 ≤ n ∨ t.roomOfSlot n = none → exec .slotRead s = refusedWith f .badArg t))
  ∧ ∀ (f : RequestFrame) (s t : State) (n : Nat), HandsOff 0x16 f s t → f.args = be 2 n → n < 65536 →
    (∀ d : Fin 24, n = d.1 → exec .laneRead s = answered f .ok
      (be 2 (t.door d).room.1 ++ flag1 (t.laneUsable d) ++ listOf (fun h => be 2 h.code) (t.stagingLane d).members
        ++ be 2 (t.stagingLane d).reserved) t)
    ∧ (24 ≤ n → exec .laneRead s = refusedWith f .badArg t)

/-- R17: the table of SLOT_BLOCK; `block` is the action, 00h or 01h (R201). -/
def Obligations.SlotBlockDecidedByState : Prop :=
  AvailableIn 0x15 [.standby, .run, .holdover]
  ∧ (∀ (f : RequestFrame) (s t : State) (slot : List Byte) (a : Byte), HandsOff 0x15 f s t → f.args = slot ++ [a] → 1 < a.toNat →
    exec .slotBlock s = refusedWith f .badArg t)
  ∧ ∀ (f : RequestFrame) (s t : State) (n : Nat) (block : Bool), HandsOff 0x15 f s t → f.args = be 2 n ++ flag1 block →
    n < 65536 →
    (4096 ≤ n ∨ t.roomOfSlot n = none → exec .slotBlock s = refusedWith f .badArg t)
    ∧ ∀ r, n < 4096 → t.roomOfSlot n = some r →
      (t.slot n = .free → block = true → exec .slotBlock s = answered f .ok [] (t.setSlot n .blocked))
      ∧ (t.slot n = .blocked → block = false → exec .slotBlock s = answered f .ok [] (t.setSlot n .free))
      ∧ ((t.slot n = .free ∧ block = false) ∨ (t.slot n = .blocked ∧ block = true) →
        exec .slotBlock s = refusedWith f .already t)
      ∧ (∀ o, t.slot n = .reserved o → exec .slotBlock s = refusedWith f .occupied t)
      ∧ (∀ h, t.slot n = .occupied h → exec .slotBlock s = refusedWith f .occupied t)

/-- R7, R12: the lowest free slot, and the room-wide reserve that takes it. -/
def Obligations.LowestFreeSlotIsLowest : Prop :=
  ∀ (s : State) (r : Fin 8), s.pdr.ending.get r ≤ 4096 →
    (∀ n : Fin 4096, s.lowestFree r = some n ↔
      s.firstSlot r ≤ n.1 ∧ n.1 < s.pdr.ending.get r ∧ s.slot n.1 = .free
        ∧ ∀ m, s.firstSlot r ≤ m → m < n.1 → s.slot m ≠ .free)
    ∧ (s.lowestFree r = none ↔ ∀ m, s.firstSlot r ≤ m → m < s.pdr.ending.get r → s.slot m ≠ .free)
    ∧ ∀ o : OrderId, s.kind r ≠ .unused →
      (∀ n, s.lowestFree r = some n → reserveClaim o (.anySlot r) s = .ok (.slot n, s.setSlot n.1 (.reserved o)))
      ∧ (s.lowestFree r = none → reserveClaim o (.anySlot r) s = .error .destFull)

/-- R21, R22. A preferred room above 7 is BAD_ARG, as a class above 15 is (O33). -/
def Obligations.ClassSetStoresTheClass : Prop :=
  AvailableIn 0x20 [.standby]
  ∧ (∀ (f : RequestFrame) (s t : State) (fields : List Byte) (hi lo : Byte), HandsOff 0x20 f s t → f.args = fields ++ [hi, lo] →
    8 ≤ beNat [hi, lo] → exec .classSet s = refusedWith f .badArg t)
  ∧ ∀ (f : RequestFrame) (s t : State) (c : Fin 16) (x : ClassRec), HandsOff 0x20 f s t →
    -32768 ≤ x.limit → x.limit ≤ 32767 → x.budget < 65536 → x.excess < 65536 →
    f.args = be 2 c.1 ++ temp2 x.limit ++ be 2 x.budget ++ be 2 x.excess ++ be 2 x.preferred.1 →
    let inRange : Prop := -500 ≤ x.limit ∧ x.limit ≤ 500 ∧ x.excess ≤ 500
    (¬inRange → exec .classSet s = refusedWith f .badArg t)
    ∧ (inRange → x.budget = 0 → t.classUsed c = true → exec .classSet s = refusedWith f .occupied t)
    ∧ (inRange → x.budget = 0 → t.classUsed c = false → exec .classSet s = answered f .ok (be 2 0)
        (t.withCtb { t.ctb with classes := upd t.ctb.classes c fun _ => { limit := 0, budget := 0, excess := 0, preferred := 0 } }))
    ∧ (inRange → x.budget ≠ 0 → t.kind x.preferred ≠ .freezer → t.kind x.preferred ≠ .blast →
        exec .classSet s = refusedWith f .badArg t)
    ∧ (inRange → x.budget ≠ 0 → t.kind x.preferred = .freezer ∨ t.kind x.preferred = .blast →
        let u := reevaluateClass c (t.withCtb { t.ctb with classes := upd t.ctb.classes c fun _ => x })
        exec .classSet s = answered f .ok (be 2 u.1) u.2)

/-- R29, R30: `i` is the lowest-numbered free entry, and the count of the session rises as R96 says (past 2048: log entry 8). -/
def Obligations.AdmitCreatesTheRecord : Prop :=
  AvailableIn 0x21 [.run]
  ∧ (∀ (f : RequestFrame) (s t : State) (tag : List Byte) (c1 c0 d1 d0 : Byte), HandsOff 0x21 f s t →
    f.args = tag ++ [c1, c0, d1, d0] → 16 ≤ beNat [c1, c0] ∨ 24 ≤ beNat [d1, d0] → exec .admission s = refusedWith f .badArg t)
  ∧ ∀ (f : RequestFrame) (s t : State) (tag : Tag) (c : Fin 16) (d : Fin 24), HandsOff 0x21 f s t →
    f.args = be 6 tag.toNat ++ be 2 c.1 ++ be 2 d.1 →
    let free : Prop := t.findTag tag = none
    let open_ : Prop := t.inboundAt d = true ∧ ((t.door d).state = .sealed ∨ (t.door d).state = .opened)
    ((t.cls c).budget = 0 → exec .admission s = refusedWith f .badArg t)
    ∧ ((t.cls c).budget ≠ 0 → ¬free → exec .admission s = refusedWith f .duplicateTag t)
    ∧ ((t.cls c).budget ≠ 0 → free → t.freeEntry = none → exec .admission s = refusedWith f .tableFull t)
    ∧ ∀ i, (t.cls c).budget ≠ 0 → free → t.freeEntry = some i →
      (¬open_ → exec .admission s = refusedWith f .doorState t)
      ∧ (open_ →
        let h : Handle := { index := Fin.ofNat 4096 i, gen := (t.entry i).gen }
        let p : Pallet :=
          { tag := tag, cls := c, place := .atDoor d, holds := { exposure := false, quality := false, placeUncertain := false }
            exposure := 0, admittedAt := t.moc.clock, admittingDoor := d, liveOrder := none }
        exec .admission s = answered f .ok (be 2 h.code)
          (((countPallet d t).setEntry i { gen := (t.entry i).gen, rec? := some p }).updDoorPallets d (insertHandle h)))

/-- R24, R28, R31, R32, R203. A CENSUS list that is empty, longer than 32, or not as long as its count says is BAD_ARG (R32, R200). -/
def Obligations.CustodyReadsAnswer : Prop :=
  AvailableIn 0x22 allModes ∧ AvailableIn 0x23 allModes ∧ AvailableIn 0x24 allModes
  ∧ (∀ (f : RequestFrame) (s t : State) (tag : Tag) (mode : Byte), HandsOff 0x22 f s t → f.args = be 6 tag.toNat ++ [mode] →
    (mode = 0#8 → ∀ h, t.findTag tag = some h → exec .findTag s = answered f .ok (be 2 h.code) t)
    ∧ (mode = 0#8 → t.findTag tag = none → exec .findTag s = refusedWith f .notFound t)
    ∧ (mode = 1#8 → ∀ x h, t.nextTag tag = some (x, h) → exec .findTag s = answered f .ok (be 6 x.toNat ++ be 2 h.code) t)
    ∧ (mode = 1#8 → t.nextTag tag = none → exec .findTag s = refusedWith f .notFound t)
    ∧ (mode ≠ 0#8 → mode ≠ 1#8 → exec .findTag s = refusedWith f .badArg t))
  ∧ (∀ (f : RequestFrame) (s t : State) (h : Handle), HandsOff 0x23 f s t → f.args = be 2 h.code →
    (t.pallet? h = none → exec .palletRead s = refusedWith f .staleHandle t)
    ∧ ∀ p, t.pallet? h = some p → exec .palletRead s = answered f .ok
      (be 6 p.tag.toNat ++ be 2 p.cls.1 ++ be 2 p.place.code ++ [p.holds.byte] ++ be 2 p.exposure ++ time4 p.admittedAt
        ++ be 2 p.admittingDoor.1 ++ optOrder p.liveOrder ++ be 2 (t.cls p.cls).budget) t)
  ∧ (∀ (f : RequestFrame) (s t : State), HandsOff 0x24 f s t →
    (f.args = [] → exec .census s = refusedWith f .badArg t)
    ∧ ∀ (n : Byte) (list : List Byte), f.args = n :: list → n = 0#8 ∨ 32 < n.toNat ∨ list.length ≠ 2 * n.toNat →
      exec .census s = refusedWith f .badArg t)
  ∧ ∀ (f : RequestFrame) (s t : State) (hs : List Handle), HandsOff 0x24 f s t → 1 ≤ hs.length → hs.length ≤ 32 →
    f.args = [BitVec.ofNat 8 hs.length] ++ hs.flatMap (fun h => be 2 h.code) →
    exec .census s = answered f .ok ([BitVec.ofNat 8 hs.length] ++ hs.flatMap fun h =>
      match t.pallet? h with
      | some p => [p.holds.byte] ++ be 2 p.place.code ++ be 2 p.exposure ++ optOrder p.liveOrder
      | none => [0x80#8] ++ be 2 0 ++ be 2 0 ++ be 2 0xFFFF) t

/-- R34, R35: `hold` is the hold's code, 1 EXPOSURE, 2 QUALITY, 3 PLACE_UNCERTAIN (R201). -/
def Obligations.HoldSetAndClear : Prop :=
  AvailableIn 0x25 [.standby, .run, .holdover] ∧ AvailableIn 0x26 [.standby, .run, .holdover]
  ∧ (∀ (f : RequestFrame) (s t : State) (h : Handle) (hold : Byte), HandsOff 0x25 f s t → f.args = be 2 h.code ++ [hold] →
    (t.pallet? h = none → exec .holdSet s = refusedWith f .staleHandle t)
    ∧ ∀ p, t.pallet? h = some p →
      (hold ≠ 2#8 → exec .holdSet s = refusedWith f .badArg t)
      ∧ (hold = 2#8 → p.holds.quality = true → exec .holdSet s = refusedWith f .already t)
      ∧ (hold = 2#8 → p.holds.quality = false → exec .holdSet s =
          answered f .ok [{ p.holds with quality := true }.byte]
            (holdNotice h (t.updPallet h fun x => { x with holds := { x.holds with quality := true } }))))
  ∧ ∀ (f : RequestFrame) (s t : State) (h : Handle) (hold : Byte), HandsOff 0x26 f s t → f.args = be 2 h.code ++ [hold] →
    (t.pallet? h = none → exec .holdClear s = refusedWith f .staleHandle t)
    ∧ ∀ p, t.pallet? h = some p →
      (hold = 2#8 → p.holds.quality = true → exec .holdClear s =
        answered f .ok [] (t.updPallet h fun x => { x with holds := { x.holds with quality := false } }))
      ∧ (hold = 2#8 → p.holds.quality = false → exec .holdClear s = refusedWith f .already t)
      ∧ (hold = 1#8 ∨ hold = 3#8 → exec .holdClear s = refusedWith f .locked t)
      ∧ (hold ≠ 1#8 → hold ≠ 2#8 → hold ≠ 3#8 → exec .holdClear s = refusedWith f .badArg t)

/-- R37, R38, R41. -/
def Obligations.RetireAndPlaceCorrect : Prop :=
  AvailableIn 0x27 [.standby, .run, .holdover] ∧ AvailableIn 0x28 [.standby, .run, .holdover]
  ∧ (∀ (f : RequestFrame) (s t : State) (h : Handle), HandsOff 0x27 f s t → f.args = be 2 h.code →
    (t.pallet? h = none → exec .retire s = refusedWith f .staleHandle t)
    ∧ ∀ p, t.pallet? h = some p →
      (p.liveOrder ≠ none → exec .retire s = refusedWith f .busy t)
      ∧ (p.liveOrder = none → exec .retire s = answered f .ok []
        ((clearAlarm .placeUncertain (.pallet h) (clearAlarm .palletExposed (.pallet h)
          ((vacateClaim h p.place t).getD t))).setEntry h.index.1 { gen := h.gen + 1, rec? := none })))
  ∧ ∀ (f : RequestFrame) (s t : State) (h : Handle) (n : Nat), HandsOff 0x28 f s t → n < 65536 →
    f.args = be 2 h.code ++ be 2 n →
    (t.pallet? h = none → exec .placeCorrect s = refusedWith f .staleHandle t)
    ∧ ∀ p, t.pallet? h = some p →
      (readCorrection n = none → exec .placeCorrect s = refusedWith f .badArg t)
      ∧ ∀ q, readCorrection n = some q →
        (p.liveOrder ≠ none → exec .placeCorrect s = refusedWith f .busy t)
        ∧ (p.liveOrder = none → t.placeValid q = false → exec .placeCorrect s = refusedWith f .badArg t)
        ∧ (p.liveOrder = none → t.placeValid q = true → q ≠ p.place → ∀ rc, occupyClaim h q t = .error rc →
            exec .placeCorrect s = refusedWith f rc t)
        ∧ (p.liveOrder = none → t.placeValid q = true → ∀ u,
            (q = p.place ∧ u = t
              ∨ q ≠ p.place ∧ ∃ v, occupyClaim h q t = .ok v
                ∧ u = ((vacateClaim h p.place v).getD v).updPallet h fun x => { x with place := q }) →
            exec .placeCorrect s = answered f .ok (be 2 q.code ++ [{ p.holds with placeUncertain := false }.byte])
              (clearAlarm .placeUncertain (.pallet h)
                (u.updPallet h fun x => { x with holds := { x.holds with placeUncertain := false } })))

/-- 11.2 with the ranges the requests' rules give. Which failure of form is found first does not show: all are BAD_ARG (log entry
7). -/
def Obligations.ArgumentListsJudged : Prop :=
  (∀ (c : Instr) (code : Byte) (n : Nat) (f : RequestFrame) (s t : State), requestCode c = some code → argLength c = some n →
    HandsOff code f s t → f.args.length ≠ n → exec c s = refusedWith f .badArg t)
  ∧ ∀ (c : Instr) (code hi lo : Byte) (rest : List Byte) (n : Nat) (f : RequestFrame) (s t : State),
    requestCode c = some code → numberLimit c = some n → HandsOff code f s t → f.args = hi :: lo :: rest →
    n ≤ beNat [hi, lo] → exec c s = refusedWith f .badArg t

/-- R51, R52, R201: `n` is the destination's code. `seqNo`, the order's place in creation order, is log entry 24. -/
def Obligations.MoveCreatesTheOrder : Prop :=
  AvailableIn 0x30 [.run]
  ∧ (∀ (f : RequestFrame) (s t : State) (h : Handle) (n : Nat) (b : Byte), HandsOff 0x30 f s t →
    f.args = be 2 h.code ++ be 2 n ++ [b] → b ≠ 0#8 → b ≠ 1#8 → exec .move s = refusedWith f .badArg t)
  ∧ ∀ (f : RequestFrame) (s t : State) (h : Handle) (n : Nat) (prio : Priority), HandsOff 0x30 f s t → n < 65536 →
    f.args = be 2 h.code ++ be 2 n ++ [prio.byte] →
    (readDest n = none → exec .move s = refusedWith f .badArg t)
    ∧ ∀ dest, readDest n = some dest →
      (t.pallet? h = none → exec .move s = refusedWith f .staleHandle t)
      ∧ ∀ p, t.pallet? h = some p →
        let bad : Prop := p.place.isCarried = true ∨ dest = .place p.place ∨ (p.place.isDoor = true ∧ dest.isDoor = true)
          ∨ t.destValid dest = false
        let sessions : Prop := (∀ d, p.place = .atDoor d → t.inboundAt d = true)
          ∧ ∀ e, dest = .place (.atDoor e) → t.outboundAt e = true
        let held : Prop := t.destOutbound dest = true ∧ p.holds.any = true
        (p.liveOrder ≠ none → exec .move s = refusedWith f .busy t)
        ∧ (p.liveOrder = none →
          (bad → exec .move s = refusedWith f .badArg t)
          ∧ (¬bad → ¬sessions → exec .move s = refusedWith f .doorState t)
          ∧ (¬bad → sessions → held → exec .move s = refusedWith f .held t)
          ∧ (¬bad → sessions → ¬held → t.freeOrderEntry = none → exec .move s = refusedWith f .tableFull t)
          ∧ ∀ i, ¬bad → sessions → ¬held → t.freeOrderEntry = some i →
            let o : OrderId := { index := Fin.ofNat 4096 i, gen := (t.orderEntry i).gen }
            (∀ rc, reserveClaim o dest t = .error rc → exec .move s = refusedWith f rc t)
            ∧ ∀ q u, reserveClaim o dest t = .ok (q, u) →
              let x : Order :=
                { pallet := h, origin := p.place, dest := q, priority := prio, state := .queued, terminal := none
                  routeDoor := routeDoor p.place q, createdAt := t.moc.clock, finishedAt := none, outcome := none
                  seqNo := t.mds.nextSeq }
              let v := (u.updPallet h fun y => { y with liveOrder := some o }).setOrderEntry i
                { gen := (t.orderEntry i).gen, rec? := some x }
              exec .move s = answered f .ok (be 2 o.code ++ be 2 q.code)
                (dispatchPass (v.withMds { v.mds with nextSeq := t.mds.nextSeq + 1 })))

/-- R53: `tryMove` is MOVE without its dispatch pass. A destination of no defined form refuses its own elements alone (log entry
22). -/
def Obligations.MoveBatchTakesEachElement : Prop :=
  AvailableIn 0x31 [.run]
  ∧ (∀ (f : RequestFrame) (s t : State) (xs : List (Handle × Bool)) (marks : List Bool) (a b : Nat) (prio : Byte),
      HandsOff 0x31 f s t → a < 65536 → b < 65536 → xs.length ≤ 45 → marks.length ≤ 45 →
      f.args = [BitVec.ofNat 8 xs.length] ++ xs.flatMap (fun x => be 2 x.1.code) ++ [BitVec.ofNat 8 marks.length]
        ++ marks.flatMap flag1 ++ be 2 a ++ be 2 b ++ [prio] →
      (∀ p : Priority, xs.map (·.2) = marks → 1 ≤ xs.length → xs.length ≤ 32 → prio = p.byte →
        let run := batchElements (readDest a) (readDest b) p xs t
        exec .moveBatch s = answered f .ok
          (be 2 (run.1.filter fun x => x.2.isSome).length ++ [BitVec.ofNat 8 run.1.length]
            ++ run.1.flatMap fun x => [x.1.byte] ++ optOrder x.2) (dispatchPass run.2))
      ∧ (xs.length = 0 ∨ 32 < xs.length ∨ xs.length ≠ marks.length ∨ (prio ≠ 0#8 ∧ prio ≠ 1#8) →
        exec .moveBatch s = refusedWith f .badArg t))
  ∧ ∀ (a b : Option Dest) (p : Priority) (h : Handle) (marked : Bool) (rest : List (Handle × Bool)) (s : State),
    let one := tryMove h (if marked then a else b) p s
    (∀ o q t, one = .ok (o, q, t) → batchElements a b p ((h, marked) :: rest) s =
      ((.ok, some o) :: (batchElements a b p rest t).1, (batchElements a b p rest t).2))
    ∧ (one = .error .tableFull → batchElements a b p ((h, marked) :: rest) s =
      ((.tableFull, none) :: rest.map fun _ => (.tableFull, none), s))
    ∧ ∀ rc, rc ≠ .tableFull → one = .error rc → batchElements a b p ((h, marked) :: rest) s =
      ((rc, none) :: (batchElements a b p rest s).1, (batchElements a b p rest s).2)

/-- R68, with the steps of R65 for a carried order. A presence flag is 00h or 01h (R201); that an absent room with other bytes is
BAD_ARG is log entry 50. -/
def Obligations.MoveCancelEndsTheOrder : Prop :=
  AvailableIn 0x32 [.standby, .run, .holdover]
  ∧ (∀ (f : RequestFrame) (s t : State) (o1 o0 b r1 r0 : Byte), HandsOff 0x32 f s t → f.args = [o1, o0, b, r1, r0] →
    1 < b.toNat ∨ (b = 0#8 ∧ beNat [r1, r0] ≠ 0) → exec .moveCancel s = refusedWith f .badArg t)
  ∧ (∀ (f : RequestFrame) (s t : State) (o : OrderId) (room : Option Nat), HandsOff 0x32 f s t → (∀ r ∈ room, r < 65536) →
    f.args = be 2 o.code ++ optField 2 (room.map (be 2)) →
    (t.order? o = none → exec .moveCancel s = refusedWith f .staleHandle t)
    ∧ ∀ x, t.order? o = some x →
      (x.state = .queued ∨ x.state = .granted →
        exec .moveCancel s = answered f .ok [] (withdrawOrder .withdrawnCancelled o t))
      ∧ (x.state = .finished → exec .moveCancel s = refusedWith f .orderState t)
      ∧ (x.state = .carrying → (room = none ∨ ∀ k, x.terminal = some k → (t.terminal k).state ≠ .offline) →
        exec .moveCancel s = refusedWith f .inCarry t)
      ∧ ∀ k r, x.state = .carrying → x.terminal = some k → (t.terminal k).state = .offline → room = some r →
        ((8 ≤ r ∨ ∃ q : Fin 8, r = q.1 ∧ t.kind q = .unused) → exec .moveCancel s = refusedWith f .badArg t)
        ∧ ∀ q : Fin 8, r = q.1 → t.kind q ≠ .unused →
          let u := leaveUseList x.routeDoor o (abandonClaim x.pallet o q (releaseClaim o x.dest
            (t.updFloor q (insertHandle x.pallet))))
          exec .moveCancel s = answered f .ok [] (dispatchPass ((finishOrder o .abandonedCancelled u).updTerminal k fun y =>
            { y with bound := none, revokeDue := some o })))
  ∧ ∀ (out : Outcome) (o : OrderId) (s : State) (x : Order), s.order? o = some x →
    (x.state = .queued → withdrawOrder out o s =
      dispatchPass (finishOrder o out (unbindClaim x.pallet o (releaseClaim o x.dest s))))
    ∧ ∀ k, x.state = .granted → x.terminal = some k → withdrawOrder out o s =
      dispatchPass (finishOrder o out (unbindClaim x.pallet o (releaseClaim o x.dest
        (placeTerm k (.revoke o) (termIdle k (leaveUseList x.routeDoor o s))))))

/-- R74: `n` is the destination's code. -/
def Obligations.MoveRedirectChangesTheDestination : Prop :=
  AvailableIn 0x33 [.standby, .run, .holdover]
  ∧ (∀ (f : RequestFrame) (s t : State) (o : OrderId) (n : Nat), HandsOff 0x33 f s t → n < 65536 →
    f.args = be 2 o.code ++ be 2 n →
    (readDest n = none → exec .moveRedirect s = refusedWith f .badArg t)
    ∧ ∀ dest, readDest n = some dest →
      (t.order? o = none → exec .moveRedirect s = refusedWith f .staleHandle t)
      ∧ ∀ x, t.order? o = some x →
        let again : Prop := dest = .place x.dest
        let bad : Prop := t.destValid dest = false ∨ (x.state ≠ .carrying ∧ dest = .place x.origin)
          ∨ (x.origin.isDoor = true ∧ dest.isDoor = true)
        let session : Prop := ∀ e, dest = .place (.atDoor e) →
          t.outboundAt e = true ∧ (x.state = .carrying → (t.door e).state ≠ .unsealing)
        let held : Prop := t.destOutbound dest = true ∧ t.held x.pallet = true
        (x.state = .finished → exec .moveRedirect s = refusedWith f .orderState t)
        ∧ (x.state ≠ .finished →
          (again → exec .moveRedirect s = refusedWith f .already t)
          ∧ (¬again → bad → exec .moveRedirect s = refusedWith f .badArg t)
          ∧ (¬again → ¬bad → ¬session → exec .moveRedirect s = refusedWith f .doorState t)
          ∧ (¬again → ¬bad → session → held → exec .moveRedirect s = refusedWith f .held t)
          ∧ (¬again → ¬bad → session → ¬held →
            (∀ rc, reserveClaim o dest t = .error rc → exec .moveRedirect s = refusedWith f rc t)
            ∧ ∀ q u, reserveClaim o dest t = .ok (q, u) →
              let v := (releaseClaim o x.dest u).updOrder o fun y =>
                { y with dest := q, routeDoor := routeDoor x.origin q }
              exec .moveRedirect s = answered f .ok (be 2 q.code) (afterRedirect o x q v))))
  ∧ ∀ (o : OrderId) (x : Order) (q : Place) (s : State) (k : Fin 16),
    let leaves := if routeDoor x.origin q = x.routeDoor then s else leaveUseList x.routeDoor o s
    (x.state = .queued → afterRedirect o x q s = dispatchPass s)
    ∧ (x.state = .granted → x.terminal = some k → routeDoor x.origin q = x.routeDoor →
      afterRedirect o x q s = placeTerm k (grantCmd s o { x with dest := q }) s)
    ∧ (x.state = .granted → x.terminal = some k → routeDoor x.origin q ≠ x.routeDoor →
      (routeDoor x.origin q = none → afterRedirect o x q s = placeTerm k (grantCmd leaves o { x with dest := q }) leaves)
      ∧ ∀ d, routeDoor x.origin q = some d →
        (∀ v, useListEntry d o leaves = some v → afterRedirect o x q s = placeTerm k (grantCmd v o { x with dest := q }) v)
        ∧ (useListEntry d o leaves = none →
          afterRedirect o x q s = dispatchPass (placeTerm k (.revoke o) (termIdle k (requeueOrder o leaves)))))
    ∧ (x.state = .carrying → x.terminal = some k → (s.terminal k).state.reachable = true →
      afterRedirect o x q s = placeTerm k (.divert o q) leaves)
    ∧ (x.state = .carrying → x.terminal = some k → (s.terminal k).state.reachable = false → afterRedirect o x q s = leaves)

/-- R75. The order of the fields and that a collected record has no order identifier are log entry 6. -/
def Obligations.OrderReadsAndCollect : Prop :=
  let fields (x : Order) : List Byte :=
    be 2 x.pallet.code ++ be 2 x.origin.code ++ be 2 x.dest.code ++ [x.priority.byte, x.state.byte]
      ++ optField 2 (x.terminal.map fun k => be 2 k.1) ++ optField 2 (x.routeDoor.map fun d => be 2 d.1) ++ time4 x.createdAt
      ++ optTime x.finishedAt ++ optField 2 (x.outcome.map Outcome.bytes)
  AvailableIn 0x34 allModes ∧ AvailableIn 0x35 [.standby, .run, .holdover] ∧ AvailableIn 0x38 allModes
  ∧ (∀ (f : RequestFrame) (s t : State) (o : OrderId), HandsOff 0x34 f s t → f.args = be 2 o.code →
    (∀ x, t.order? o = some x → exec .moveRead s = answered f .ok (fields x) t)
    ∧ (t.order? o = none → exec .moveRead s = refusedWith f .staleHandle t))
  ∧ (∀ (f : RequestFrame) (s t : State) (k : Fin 16), HandsOff 0x38 f s t → f.args = be 2 k.1 →
    let x := t.terminal k
    exec .terminalRead s = answered f .ok
      (flag1 x.enabled ++ [x.state.byte] ++ optOrder x.bound ++ flag1 x.handsFull ++ flag1 x.dispatchHold ++ time4 x.idleSince
        ++ optOrder x.revokeDue) t)
  ∧ ∀ (f : RequestFrame) (s t : State), HandsOff 0x35 f s t → f.args = [] →
    let taken := t.mds.finished.take 8
    let u := t.withMds { t.mds with finished := t.mds.finished.drop 8 }
    let v := taken.foldl (fun w (o : OrderId) => w.setOrderEntry o.index.1 { gen := o.gen + 1, rec? := none }) u
    exec .moveCollect s = answered f .ok (listOf fields (taken.filterMap t.order?)) v
    ∧ ∀ w, exec .moveCollect s = .next w → (w.lkp.pendingCauses.move = true ↔ 8 < t.mds.finished.length)

/-- R57 with R201's target and action codes; R56 with LPL's side of R168. -/
def Obligations.DispatchHoldAndTerminalSet : Prop :=
  AvailableIn 0x36 [.run] ∧ AvailableIn 0x37 [.standby]
  ∧ (∀ (f : RequestFrame) (s t : State) (b : Byte) (v : Bool), HandsOff 0x36 f s t → f.args = [b] ++ flag1 v →
    (∀ k : Fin 16, b = BitVec.ofNat 8 k.1 →
      let u := t.updTerminal k fun x => { x with dispatchHold := v }
      ((t.terminal k).dispatchHold = v → exec .dispatchHold s = refusedWith f .already t)
      ∧ ((t.terminal k).dispatchHold ≠ v → exec .dispatchHold s = answered f .ok [] (if v then u else dispatchPass u)))
    ∧ (b = 0xFF#8 →
      let hit := (List.finRange 16).filter fun k => (t.terminal k).dispatchHold ≠ v
      let u := hit.foldl (fun w k => w.updTerminal k fun x => { x with dispatchHold := v }) t
      (∀ k, u.terminal k = { t.terminal k with dispatchHold := v })
      ∧ exec .dispatchHold s = answered f .ok (be 2 hit.length) (if v = true ∨ hit = [] then u else dispatchPass u))
    ∧ (16 ≤ b.toNat → b ≠ 0xFF#8 → exec .dispatchHold s = refusedWith f .badArg t))
  ∧ (∀ (f : RequestFrame) (s t : State) (target flag : Byte), flag ≠ 0#8 → flag ≠ 1#8 →
    (HandsOff 0x36 f s t → f.args = [target, flag] → exec .dispatchHold s = refusedWith f .badArg t)
    ∧ ∀ k : Fin 16, HandsOff 0x37 f s t → f.args = be 2 k.1 ++ [flag] → exec .terminalSet s = refusedWith f .badArg t)
  ∧ ∀ (f : RequestFrame) (s t : State) (k : Fin 16) (en : Bool), HandsOff 0x37 f s t → f.args = be 2 k.1 ++ flag1 en →
    let unheard (x : Station) : Station := { x with link := .unconfirmed, missed := 0, slot := none, slotSent := false }
    ((t.terminal k).enabled = en → exec .terminalSet s = refusedWith f .already t)
    ∧ ((t.terminal k).enabled = true → en = false →
      ((t.terminal k).bound ≠ none → exec .terminalSet s = refusedWith f .busy t)
      ∧ ((t.terminal k).bound = none → exec .terminalSet s = answered f .ok [] (clearAlarm .terminalLost (.terminal k)
        ((t.updTerminal k fun x => { x with enabled := false, state := .disabled, revokeDue := none }).updStation (.term k)
          unheard))))
    ∧ ((t.terminal k).enabled = false → en = true → exec .terminalSet s = answered f .ok []
      ((t.updTerminal k fun x => { x with enabled := true, state := .offline, handsFull := false, revokeDue := none }).updStation
        (.term k) unheard))

/-- R62, R63, R64, R67: `u` is the state after the answer's delivery (R162), in which a terminal that was OFFLINE is first heard again
(R67, R72). The order of one drop's portal notices is log entry 35. -/
def Obligations.PickedAndDropped : Prop :=
  (∀ (k : Fin 16) (received : List Byte) (s : State) (tag : Tag) (place : Nat),
    Answers (.term k) (.picked tag place) received s →
    let u := terminalHeard k (takeDelivery (.term k) s)
    ((u.terminal k).state ≠ .granted →
      exec (.picked received) s = reported .term (refuse k .state u))
    ∧ ∀ o x, (u.terminal k).state = .granted → (u.terminal k).bound = some o → u.order? o = some x →
      ((u.pallet? x.pallet).map (·.tag) ≠ some tag ∨ place ≠ x.origin.code ∨ vacateClaim x.pallet x.origin u = none →
        exec (.picked received) s = reported .term (refuse k .pickMismatch u))
      ∧ ∀ v, (u.pallet? x.pallet).map (·.tag) = some tag → place = x.origin.code → vacateClaim x.pallet x.origin u = some v →
        exec (.picked received) s = reported .term (placeTerm k (.accept .picked none)
          (((pickClaim x.pallet o v).updOrder o fun y => { y with state := .carrying }).updTerminal k fun y =>
            { y with state := .carrying })))
  ∧ ∀ (k : Fin 16) (received : List Byte) (s : State) (place : Nat), Answers (.term k) (.dropped place) received s →
    let u := terminalHeard k (takeDelivery (.term k) s)
    ((u.terminal k).state ≠ .carrying →
      exec (.dropped received) s = reported .term (refuse k .state u))
    ∧ ∀ o x, (u.terminal k).state = .carrying → (u.terminal k).bound = some o → u.order? o = some x →
      (place ≠ x.dest.code → exec (.dropped received) s = reported .term (refuse k .dropMismatch u))
      ∧ (place = x.dest.code →
        let held : Prop := u.outbound x.dest = true ∧ u.held x.pallet = true
        (held → exec (.dropped received) s = reported .term (refuse k .held u))
        ∧ (¬held → dropThrough x.dest u = none → exec (.dropped received) s = reported .term (refuse k .doorShut u))
        ∧ ∀ v, ¬held → dropThrough x.dest u = some v →
          (commitClaim o x.pallet x.dest v = none →
            exec (.dropped received) s = reported .term (refuse k .dropMismatch u))
          ∧ ∀ w, commitClaim o x.pallet x.dest v = some w →
            let s1 := finishOrder o .done (dropClaim x.pallet o x.dest w)
            let s2 := placeTerm k (.accept .dropped none) (termIdle k s1)
            let s3 := movedNotice x.origin (leaveUseList x.routeDoor o s2)
            exec (.dropped received) s = reported .term
              (dispatchPass ((s3.portalRooms x.origin x.dest).foldl (fun y r => portalPassage r y) s3)))

/-- R65, R66, R67: `u` is the state after the answer's delivery (R162), in which a terminal that was OFFLINE is first heard again (R67,
R72). Any refusal of the reserve claim is DEST_FULL (log entry 32). -/
def Obligations.AbandonSubmitReady : Prop :=
  (∀ (k : Fin 16) (received : List Byte) (s : State) (room : Nat), Answers (.term k) (.abandon room) received s →
    let u := terminalHeard k (takeDelivery (.term k) s)
    ((u.terminal k).state ≠ .carrying →
      exec (.abandon received) s = reported .term (refuse k .state u))
    ∧ ∀ o x, (u.terminal k).state = .carrying → (u.terminal k).bound = some o → u.order? o = some x →
      ((8 ≤ room ∨ ∃ r : Fin 8, room = r.1 ∧ u.kind r = .unused) →
        exec (.abandon received) s = reported .term (refuse k .place u))
      ∧ ∀ r : Fin 8, room = r.1 → u.kind r ≠ .unused →
        let v := leaveUseList x.routeDoor o (abandonClaim x.pallet o r (releaseClaim o x.dest
          (u.updFloor r (insertHandle x.pallet))))
        exec (.abandon received) s = reported .term
          (dispatchPass (placeTerm k (.accept .abandon none) (termIdle k (finishOrder o .abandonedTerminal v)))))
  ∧ (∀ (k : Fin 16) (received : List Byte) (s : State) (tag : Tag), Answers (.term k) (.submit tag) received s →
    let u := terminalHeard k (takeDelivery (.term k) s)
    let no (why : RefuseReason) : Prop := exec (.submit received) s = reported .term (refuse k why u)
    ((u.terminal k).state ≠ .idle → no .state)
    ∧ ((u.terminal k).state = .idle →
      (u.moc.strap = .hostOnly → no .notEnabled)
      ∧ (u.moc.strap = .terminal →
        (u.mode ≠ .run → no .mode)
        ∧ (u.mode = .run →
          (u.findTag tag = none → no .notFound)
          ∧ ∀ h p, u.findTag tag = some h → u.pallet? h = some p →
            (p.liveOrder ≠ none → no .busy)
            ∧ (p.liveOrder = none →
              let standsFree : Prop := (∃ d, p.place = .lane d ∧ (u.stagingLane d).members.head? = some h) ∨ ∃ r, p.place = .floor r
              let room : Dest := .anySlot (u.cls p.cls).preferred
              (¬standsFree → no .place)
              ∧ (standsFree → u.freeOrderEntry = none → no .tableFull)
              ∧ ∀ i, standsFree → u.freeOrderEntry = some i →
                (∀ rc, createOrder i h p.place room .normal u = .error rc → no .destFull)
                ∧ ∀ o q v, createOrder i h p.place room .normal u = .ok (o, q, v) →
                  exec (.submit received) s = reported .term (dispatchPass (placeTerm k (.accept .submit (some o)) v)))))))
  ∧ ∀ (k : Fin 16) (received : List Byte) (s : State) (full : Bool), Answers (.term k) (.ready full) received s →
    let u := terminalHeard k (takeDelivery (.term k) s)
    let v := u.updTerminal k fun y => { y with handsFull := full }
    (u.terminal k).state.reachable = true → exec (.readyReport received) s = reported .term
      (if (u.terminal k).handsFull = true ∧ full = false ∧ (u.terminal k).state = .idle then dispatchPass v else v)

/-- R49, R58, R59, R60, and what a pass leaves unchanged. The retry interval is judged at the end of each pass and of each command
(`settle`, log entry 14); an expiry that is not due is no event (log entry 2). -/
def Obligations.DispatchPassVisitsWaitingTerminals : Prop :=
  (∀ s : State, s.mode ≠ .run → dispatchPass s = s)
  ∧ (∀ s : State, s.mode = .run → dispatchPass s = syncRetry (s.waitingTerminals.foldl (fun u k => visitTerminal k u) s))
  ∧ (∀ s : State,
    let runs : Prop := s.mode = .run ∧ (∃ k, (s.terminal k).state = .idle ∧ (s.terminal k).dispatchHold = false)
      ∧ ∃ y ∈ s.orders, y.2.state = .queued
    (runs → syncRetry s = s.withMds { s.mds with retryDue := some (s.mds.retryDue.getD (s.moc.clock + 1)) })
    ∧ (¬runs → syncRetry s = s.withMds { s.mds with retryDue := none })
    ∧ settle s = (syncRetry s).withLkp { s.lkp with
      pendingCauses := { s.lkp.pendingCauses with move := !s.mds.finished.isEmpty } })
  ∧ (∀ (s : State) (o : OrderId) (x : Order), s.order? o = some x →
    (s.eligible o = true ↔ s.mode = .run ∧ x.state = .queued
      ∧ (∀ d, x.origin = .lane d → (s.stagingLane d).members.head? = some x.pallet)
      ∧ ∀ d, x.routeDoor = some d → (s.door d).state = .opened ∧ (s.door d).useList.length < 16))
  ∧ (∀ s : State, s.orders.Pairwise fun a b => a.2.seqNo ≤ b.2.seqNo)
  ∧ (∀ (s : State) (o : OrderId) (x : Order), (o, x) ∈ s.orders ↔
    ∃ i e, (i, e) ∈ s.mds.entries ∧ e.rec? = some x ∧ o = { index := Fin.ofNat 4096 i, gen := e.gen })
  ∧ (∀ (s : State) (p : Priority),
    s.queue p = (s.orders.filter fun y => y.2.state = .queued ∧ y.2.priority = p).map fun y => y.1)
  ∧ (∀ (s : State) (k : Fin 16),
    k ∈ s.waitingTerminals ↔ (s.terminal k).state = .idle ∧ (s.terminal k).dispatchHold = false)
  ∧ (∀ s : State, s.waitingTerminals.Pairwise fun a b => (s.terminal a).idleSince < (s.terminal b).idleSince
    ∨ ((s.terminal a).idleSince = (s.terminal b).idleSince ∧ a < b))
  ∧ (∀ (s : State) (k : Fin 16),
    (∀ o, (s.queue .urgent).find? s.eligible = some o → visitTerminal k s = grantOrder o k s)
    ∧ ((s.queue .urgent).find? s.eligible = none → (s.terminal k).handsFull = true → visitTerminal k s = s)
    ∧ ((s.queue .urgent).find? s.eligible = none → (s.terminal k).handsFull = false →
      (∀ o, (s.queue .normal).find? s.eligible = some o → visitTerminal k s = grantOrder o k s)
      ∧ ((s.queue .normal).find? s.eligible = none → visitTerminal k s = s)))
  ∧ (∀ (s : State) (o : OrderId) (x : Order) (p : Pallet) (k : Fin 16), s.order? o = some x → s.pallet? x.pallet = some p →
    s.eligible o = true →
    let s1 : State := match x.routeDoor with
      | some d => s.updDoor d fun y => { y with useList := y.useList ++ [o] }
      | none => s
    grantOrder o k s = placeTerm k (.grant o p.tag x.origin x.dest (actionFor x.origin))
      ((s1.updOrder o fun y => { y with state := .granted, terminal := some k }).updTerminal k fun y =>
        { y with state := .granted, bound := some o, revokeDue := none }))
  ∧ (∀ s : State, let u := dispatchPass s
    u.pdr = s.pdr ∧ u.ctb = s.ctb ∧ u.tsu = s.tsu ∧ u.dfc = s.dfc ∧ u.alt = s.alt ∧ u.lkp = s.lkp ∧ u.moc = s.moc
      ∧ u.timeBase = s.timeBase ∧ u.pending = s.pending ∧ u.dkc.holds = s.dkc.holds ∧ u.mds.finished = s.mds.finished
      ∧ (∀ d, { u.door d with useList := [] } = { s.door d with useList := [] })
      ∧ ∀ st, { u.station st with slot := none, slotSent := false } = { s.station st with slot := none, slotSent := false })
  ∧ (∀ (s : State) (d : Time), s.mds.retryDue = some d → d ≤ s.moc.clock →
    exec .dispatchRetryExpiry s = .next (settle (dispatchPass (s.withMds { s.mds with retryDue := none }))))
  ∧ ∀ s : State, (∀ d, s.mds.retryDue = some d → s.moc.clock < d) → exec .dispatchRetryExpiry s = .next s

/-- R79, with LPL's side of R168. A room above 7 or a flag byte above 01h is BAD_ARG. That a door taken into service has no STOP in
its slot is log entry 37. -/
def Obligations.DoorSetConfigures : Prop :=
  AvailableIn 0x40 [.standby]
  ∧ (∀ (f : RequestFrame) (s t : State) (d1 d0 r1 r0 m1 m0 b : Byte), HandsOff 0x40 f s t →
    f.args = [d1, d0, r1, r0, m1, m0, b] → 8 ≤ beNat [r1, r0] ∨ 1 < b.toNat → exec .doorSet s = refusedWith f .badArg t)
  ∧ ∀ (f : RequestFrame) (s t : State) (d : Fin 24) (room : Fin 8) (lim : Nat) (on : Bool), HandsOff 0x40 f s t → lim < 65536 →
    f.args = be 2 d.1 ++ be 2 room.1 ++ be 2 lim ++ flag1 on →
    let x := t.door d
    let moves : Prop := x.room ≠ room
    let leaves : Prop := x.inService = true ∧ on = false
    let laneUsed : Prop := 0 < (t.stagingLane d).members.length + (t.stagingLane d).reserved
    let bare (st : DoorState) : Prop := st = .vacant ∨ (st = .arrived ∧ x.session = none)
    let removable : Prop := bare x.state ∨ (x.state = .offline ∧ ∃ st, x.remembered = some st ∧ bare st)
    (lim < 60 ∨ 3600 < lim → exec .doorSet s = refusedWith f .badArg t)
    ∧ (60 ≤ lim → lim ≤ 3600 →
      (moves ∨ leaves → laneUsed → exec .doorSet s = refusedWith f .occupied t)
      ∧ (¬((moves ∨ leaves) ∧ laneUsed) → (moves ∧ x.notClosed = true) ∨ (leaves ∧ ¬removable) →
        exec .doorSet s = refusedWith f .doorState t)
      ∧ (¬((moves ∨ leaves) ∧ laneUsed) → ¬(moves ∧ x.notClosed = true) → ¬(leaves ∧ ¬removable) →
        let u := t.updDoor d fun y => { y with room := room, openLimit := lim }
        let unheard (y : Station) : Station := { y with link := .unconfirmed, missed := 0, slot := none, slotSent := false }
        let both (v : State) : Host.Outcome State Fault Refusal :=
          answered f .ok [] (if x.room = room then v else reevaluateHold room (reevaluateHold x.room v))
        (x.inService = on → exec .doorSet s = both u)
        ∧ (x.inService = false → on = true → x.state = .vacant → exec .doorSet s =
          both ((doorEnter d .offline (u.updDoor d fun y =>
            { y with inService := true, remembered := some .vacant, last := {} })).updStation (.door d) unheard))
        ∧ (x.inService = true → on = false →
          let v := u.updDoor d fun y => { y with inService := false, remembered := none }
          exec .doorSet s = both (clearAlarm .stationLost (.station (.door d))
            ((if x.state = .vacant then v else doorEnter d .vacant v).updStation (.door d) unheard)))))

/-- R81, R201. The seal limit runs from state-since (4.3). -/
def Obligations.DoorSealStartsTheSeal : Prop :=
  AvailableIn 0x41 [.run]
  ∧ (∀ (f : RequestFrame) (s t : State) (d : Fin 24) (ref : BitVec 32) (b : Byte) (n : Nat), HandsOff 0x41 f s t →
    f.args = be 2 d.1 ++ be 4 ref.toNat ++ [b] ++ be 2 n → (∀ dir : Direction, b ≠ dir.byte) →
    exec .doorSeal s = refusedWith f .badArg t)
  ∧ ∀ (f : RequestFrame) (s t : State) (d : Fin 24) (ref : BitVec 32) (dir : Direction) (n : Nat), HandsOff 0x41 f s t →
    n < 65536 → f.args = be 2 d.1 ++ be 4 ref.toNat ++ [dir.byte] ++ be 2 n →
    let starts (u : State) : Host.Outcome State Fault Refusal :=
      let v := u.updDoor d fun x => { x with state := .sealing, stateSince := t.moc.clock }
      let w := v.withLkp { v.lkp with
        pendingCauses := { v.lkp.pendingCauses with door := true }, doorSet := insertFin d v.lkp.doorSet }
      answered f .accepted [] (w.updStation (.door d) fun y => { y with slot := some (.door .inflate), slotSent := false })
    (60 < n → exec .doorSeal s = refusedWith f .badArg t)
    ∧ (n ≤ 60 →
      ((t.door d).state ≠ .arrived → exec .doorSeal s = refusedWith f .doorState t)
      ∧ ((t.door d).state = .arrived →
        (∀ y, (t.door d).session = some y → (y.direction ≠ dir ∨ y.ref ≠ ref) → exec .doorSeal s = refusedWith f .badArg t)
        ∧ (∀ y, (t.door d).session = some y → y.direction = dir → y.ref = ref →
          exec .doorSeal s = starts (t.updDoor d fun x => { x with session := some { y with expected := n } }))
        ∧ ((t.door d).session = none →
          let y : Session :=
            { ref := ref, direction := dir, expected := n, count := 0, moved := 0, sealedAt := none, openSeconds := 0 }
          let u := t.updDoor d fun x => { x with session := some y }
          (dir = .inbound → exec .doorSeal s = starts u)
          ∧ (dir = .outbound → exec .doorSeal s = starts (sessionNotice d u)))))

/-- R83 with the settle check as its table gives it (log entry 36), R85 with R201's FORCE flag and the departure of R89, R87. Open
seconds past 32 bits are a free value (`addOpenSeconds`, log entry 9), for which this holds whatever it is. -/
def Obligations.DoorOpenCloseRelease : Prop :=
  AvailableIn 0x42 [.run] ∧ AvailableIn 0x43 [.run] ∧ AvailableIn 0x44 [.run]
  ∧ (∀ (f : RequestFrame) (s t : State) (d : Fin 24), HandsOff 0x42 f s t → f.args = be 2 d.1 →
    let x := t.door d
    let heldOff : Prop := (t.hold x.room).state = .held ∨ (t.hold x.room).state = .forcedPending
    (x.state = .opened → exec .doorOpen s = refusedWith f .already t)
    ∧ (x.state ≠ .opened → x.state ≠ .sealed → exec .doorOpen s = refusedWith f .doorState t)
    ∧ (x.state = .sealed → t.moc.clock < x.closeCompleted + 5 → exec .doorOpen s = refusedWith f .settling t)
    ∧ (x.state = .sealed → x.closeCompleted + 5 ≤ t.moc.clock → heldOff → exec .doorOpen s = refusedWith f .defrostHold t)
    ∧ (x.state = .sealed → x.closeCompleted + 5 ≤ t.moc.clock → ¬heldOff →
      exec .doorOpen s = answered f .accepted [] (placeDoor d .leafUp (doorEnter d .opening t))))
  ∧ (∀ (f : RequestFrame) (s t : State) (d : Fin 24) (b : Byte), HandsOff 0x43 f s t → f.args = be 2 d.1 ++ [b] →
    b ≠ 0#8 → b ≠ 1#8 → exec .doorClose s = refusedWith f .badArg t)
  ∧ (∀ (f : RequestFrame) (s t : State) (d : Fin 24) (force : Bool), HandsOff 0x43 f s t → f.args = be 2 d.1 ++ flag1 force →
    let x := t.door d
    (x.state = .sealed → exec .doorClose s = refusedWith f .already t)
    ∧ (x.state ≠ .sealed → x.state ≠ .opened → exec .doorClose s = refusedWith f .doorState t)
    ∧ (x.state = .opened → x.useList ≠ [] → force = false → exec .doorClose s = refusedWith f .doorInUse t)
    ∧ (x.state = .opened → x.useList = [] ∨ force = true →
      let u := (doorEnter d .closing t).updDoor d fun y =>
        { y with
          useList := []
          session := y.session.map fun z =>
            { z with openSeconds := addOpenSeconds z.openSeconds (t.moc.clock - y.openSince.getD t.moc.clock) }
          openSince := none, openWaitDue := none }
      exec .doorClose s = answered f .accepted []
        (placeDoor d .leafDown (departureNotice x.useList (clearAlarm .doorOpenLong (.door d) u)))))
  ∧ ∀ (f : RequestFrame) (s t : State) (d : Fin 24), HandsOff 0x44 f s t → f.args = be 2 d.1 →
    let notEmpty : Prop := t.inboundAt d = true ∧ t.doorPallets d ≠ []
    ((t.door d).state ≠ .sealed → exec .doorRelease s = refusedWith f .doorState t)
    ∧ ((t.door d).state = .sealed → 0 < t.ordersNaming d → exec .doorRelease s = refusedWith f .doorInUse t)
    ∧ ((t.door d).state = .sealed → t.ordersNaming d = 0 → notEmpty → exec .doorRelease s = refusedWith f .notEmpty t)
    ∧ ((t.door d).state = .sealed → t.ordersNaming d = 0 → ¬notEmpty →
      exec .doorRelease s = answered f .accepted [] (placeDoor d .deflate (doorEnter d .unsealing t)))

/-- R100 (the layout of the session, the counts and the claims is log entry 6) and R92. -/
def Obligations.DoorReadAndClearFault : Prop :=
  AvailableIn 0x45 allModes ∧ AvailableIn 0x46 [.run]
  ∧ (∀ (f : RequestFrame) (s t : State) (d : Fin 24), HandsOff 0x45 f s t → f.args = be 2 d.1 →
    let x := t.door d
    let session (y : Session) : List Byte :=
      be 4 y.ref.toNat ++ [y.direction.byte] ++ be 2 y.expected ++ be 2 y.count ++ be 2 y.moved ++ optTime y.sealedAt
        ++ be 4 y.openSeconds
    exec .doorRead s = answered f .ok
      (be 2 x.room.1 ++ be 2 x.openLimit ++ flag1 x.inService ++ [x.state.byte] ++ optField 1 (x.fault.map fun c => [c.byte])
        ++ optField 1 (x.remembered.map fun st => [st.byte])
        ++ ([x.last.leaf.byte] ++ flag1 x.last.sealOk ++ flag1 x.last.trailer ++ [x.last.stationFault])
        ++ [x.outcome.byte] ++ be 2 x.outcome.pallets ++ time4 x.stateSince ++ optTime x.openSince ++ time4 x.closeCompleted
        ++ listOf (fun o => be 2 o.code) x.useList ++ optField 20 (x.session.map session)
        ++ ([(t.hold x.room).state.byte] ++ listOf (fun c => be 2 c.1.1 ++ flag1 c.2) (t.hold x.room).claims)
        ++ temp2 (t.thermal x.room).temp ++ flag1 (t.thermal x.room).known ++ [(t.thermal x.room).state.byte]) t)
  ∧ ∀ (f : RequestFrame) (s t : State) (d : Fin 24), HandsOff 0x46 f s t → f.args = be 2 d.1 →
    let x := t.door d
    let clear : Prop := x.state = .fault ∧ x.last.leaf = .closed ∧ x.last.stationFault = 0#8
    let u := t.updDoor d fun y => { y with fault := none }
    let ends (v : State) : State := clearAlarm .trailerLost (.door d) (clearAlarm .doorFault (.door d) v)
    (¬clear → exec .doorClearFault s = refusedWith f .doorState t)
    ∧ (clear → x.last.trailer = true → x.last.sealOk = true → x.session ≠ none →
      let v := (doorEnter d .sealed u).updDoor d fun y =>
        { y with session := y.session.map fun z => { z with sealedAt := some (z.sealedAt.getD t.moc.clock) } }
      exec .doorClearFault s = answered f .ok [3#8]
        (reevaluateHold x.room (doorOutcome d .faultCleared (ends (clearAlarm .sealFailed (.door d) v)))))
    ∧ (clear → x.last.trailer = true → ¬(x.last.sealOk = true ∧ x.session ≠ none) →
      let v := doorEnter d .arrived u
      exec .doorClearFault s = answered f .ok [1#8]
        (reevaluateHold x.room (doorOutcome d .faultCleared (ends (if x.last.sealOk then placeDoor d .deflate v else v)))))
    ∧ (clear → x.last.trailer = false →
      exec .doorClearFault s = answered f .ok [0#8] (reevaluateHold x.room (ends (trailerGone d u))))

/-- R82, R84, R88, R90, the limits measured from state-since (4.3). The re-evaluation at entry to FAULT, after
the raise, is log entries 29 and 44; a limit that is not due is no event (log entry 2). -/
def Obligations.DoorLimitsExpire : Prop :=
  ∀ (s : State) (d : Fin 24),
    let x := s.door d
    let faults (c : FaultCode) : Host.Outcome State Fault Refusal :=
      let u := raiseAlarm .doorFault (.door d) (some (.faultCode c))
        (placeDoor d .stop (doorEnter d .fault (s.updDoor d fun y => { y with fault := some c })))
      .next (settle (if (u.door d).notClosed then u else reevaluateHold x.room u))
    let past (n : Nat) : Prop := x.stateSince + n ≤ s.moc.clock
    (x.state = .sealing → past 60 → exec (.sealLimitExpiry d) s =
      .next (settle (raiseAlarm .sealFailed (.door d) none
        (doorOutcome d .sealFailed (placeDoor d .deflate (doorEnter d .arrived s))))))
    ∧ (¬(x.state = .sealing ∧ past 60) → exec (.sealLimitExpiry d) s = .next s)
    ∧ (x.state = .opening ∨ x.state = .closing → past 20 → exec (.leafTravelLimitExpiry d) s = faults .leafTimeout)
    ∧ (¬((x.state = .opening ∨ x.state = .closing) ∧ past 20) → exec (.leafTravelLimitExpiry d) s = .next s)
    ∧ (x.state = .unsealing → past 60 → exec (.unsealLimitExpiry d) s = faults .unsealTimeout)
    ∧ (¬(x.state = .unsealing ∧ past 60) → exec (.unsealLimitExpiry d) s = .next s)
    ∧ (∀ w, x.state = .opened → x.openWaitDue = some w → w ≤ s.moc.clock → exec (.openTimeWaitExpiry d) s =
      .next (settle (raiseAlarm .doorOpenLong (.door d) none (s.updDoor d fun y => { y with openWaitDue := none }))))
    ∧ ((∀ w, x.state = .opened → x.openWaitDue = some w → s.moc.clock < w) → exec (.openTimeWaitExpiry d) s = .next s)

/-- R80, row by row; `u` is the state with the report stored. Then what its rows do: entry to a state (R77, R101), to OPEN (R84) and to
FAULT (R90), trailer gone (R91, R40, R38), the end of an unseal (R88, R39), and reconciliation by remembered state (R94, R92). The
re-evaluation at entry to FAULT, after the raises, is log entries 29 and 44, DEFLATE where the trailer is absent log entry 28. That a
door reconciled from a transient state keeps its last outcome is log entry 51, that one resumed in FAULT has no STOP placed log entry
52. -/
def Obligations.DoorReportsActByState : Prop :=
  (∀ (d : Fin 24) (received : List Byte) (s : State) (r : DoorReport), Answers (.door d) (.door r) received s →
    let u := (takeDelivery (.door d) s).updDoor d fun x => { x with last := r }
    let st := (s.door d).state
    let becomes (v : State) : Prop := exec (.doorStatus received) s = reported .door v
    let quiet : Prop := r.stationFault = 0#8
    let here : Prop := quiet ∧ r.trailer = true
    (r.stationFault ≠ 0#8 → st ≠ .offline → st ≠ .fault → becomes (enterFault d .stationFault u))
    ∧ (quiet → r.trailer = false →
      (st = .arrived → becomes (trailerGone d u))
      ∧ (st = .sealing ∨ st = .sealed ∨ st = .opening ∨ st = .opened ∨ st = .closing ∨ st = .unsealing →
        becomes (enterFault d .trailerLost u))
      ∧ (st = .vacant → r.leaf = .closed → becomes u))
    ∧ (here → st = .sealing → r.sealOk = true → becomes (confirmSeal d (doorOutcome d .sealOk (doorEnter d .sealed u))))
    ∧ (here → st = .unsealing → r.sealOk = false → becomes (unsealComplete d u))
    ∧ (here → st = .sealed ∨ st = .opening ∨ st = .opened ∨ st = .closing → r.sealOk = false →
      becomes (enterFault d .sealLost u))
    ∧ (here → (st = .sealing ∧ r.sealOk = false) ∨ (st = .unsealing ∧ r.sealOk = true) ∨ (st = .sealed ∧ r.sealOk = true)
        ∨ st = .arrived →
      (r.leaf ≠ .closed → becomes (enterFault d .uncommandedLeaf u)) ∧ (r.leaf = .closed → becomes u))
    ∧ (quiet → st = .vacant → r.leaf ≠ .closed → becomes (enterFault d .uncommandedLeaf u))
    ∧ (here → st = .opened → r.sealOk = true →
      (r.leaf ≠ .opened → becomes (enterFault d .uncommandedLeaf u)) ∧ (r.leaf = .opened → becomes u))
    ∧ (here → st = .opening → r.sealOk = true →
      (r.leaf = .opened → becomes (enterOpen d (doorOutcome d .opened u))) ∧ (r.leaf ≠ .opened → becomes u))
    ∧ (here → st = .closing → r.sealOk = true →
      (r.leaf = .closed → becomes (reevaluateHold (s.door d).room
        ((doorOutcome d .closed (doorEnter d .sealed u)).updDoor d fun y => { y with closeCompleted := s.moc.clock })))
      ∧ (r.leaf ≠ .closed → becomes u))
    ∧ (here → st = .vacant → r.leaf = .closed → becomes (doorEnter d .arrived u))
    ∧ (st = .fault → becomes (if (s.door d).notClosed = (u.door d).notClosed then u else reevaluateHold (s.door d).room u))
    ∧ (st = .offline → becomes (reconcileDoor d u)))
  ∧ (∀ (d : Fin 24) (s : State),
    (∀ st, doorEnter d st s = (s.updDoor d fun x => { x with state := st, stateSince := s.moc.clock }).withLkp { s.lkp with
      pendingCauses := { s.lkp.pendingCauses with door := true }, doorSet := insertFin d s.lkp.doorSet })
    ∧ (∀ out, doorOutcome d out s = (s.updDoor d fun x => { x with outcome := out }).withLkp { s.lkp with
      pendingCauses := { s.lkp.pendingCauses with door := true }, doorSet := insertFin d s.lkp.doorSet })
    ∧ (∀ c, placeDoor d c s = s.updStation (.door d) fun y => { y with slot := some (.door c), slotSent := false })
    ∧ confirmSeal d s = clearAlarm .sealFailed (.door d) (s.updDoor d fun x =>
      { x with session := x.session.map fun y => { y with sealedAt := some (y.sealedAt.getD s.moc.clock) } })
    ∧ enterOpen d s = dispatchPass ((doorEnter d .opened s).updDoor d fun x =>
      { x with openSince := some s.moc.clock, openWaitDue := some (s.moc.clock + x.openLimit) }))
  ∧ (∀ (d : Fin 24) (code : FaultCode) (s : State),
    let t := doorEnter d .fault (s.updDoor d fun x => { x with fault := some code })
    let departed := clearAlarm .doorOpenLong (.door d) (t.updDoor d fun x =>
      { x with
        useList := []
        session := x.session.map fun z =>
          { z with openSeconds := addOpenSeconds z.openSeconds (s.moc.clock - x.openSince.getD s.moc.clock) }
        openSince := none, openWaitDue := none })
    let v := if (s.door d).state = .opened then departureNotice (s.door d).useList departed else t
    let u := raiseAlarm .doorFault (.door d) (some (.faultCode code)) (placeDoor d .stop v)
    let w := if code = .trailerLost then raiseAlarm .trailerLost (.door d) none u else u
    enterFault d code s = if (w.door d).notClosed then w else reevaluateHold (w.door d).room w)
  ∧ (∀ (d : Fin 24) (s : State),
    let named (y : OrderId × Order) : Prop := (y.2.state = .queued ∨ y.2.state = .granted)
      ∧ (y.2.origin = .atDoor d ∨ y.2.dest = .atDoor d)
    let t := (s.orders.filter named).foldl (fun u y => withdrawOrder .withdrawnTrailerGone y.1 u) s
    let retired := (t.doorPallets d).foldl (fun u h => retirePallet h u) t
    let bare (u : State) : State := u.updDoor d fun x => { x with session := none }
    let out : Prop := ∃ y, (s.door d).session = some y ∧ y.direction = .outbound
    trailerGone d s = clearAlarm .sealFailed (.door d)
        (doorOutcome d (.leftOnTrailer (t.doorPallets d).length) (doorEnter d .vacant (bare retired)))
    ∧ (out → unsealComplete d s = doorOutcome d (.released (t.doorPallets d).length) (doorEnter d .arrived (bare retired)))
    ∧ (¬out → unsealComplete d s = doorOutcome d (.released 0) (doorEnter d .arrived (bare t))))
  ∧ (∀ (h : Handle) (s : State),
    (s.pallet? h = none → retirePallet h s = s)
    ∧ ∀ p, s.pallet? h = some p → retirePallet h s =
      (clearAlarm .placeUncertain (.pallet h) (clearAlarm .palletExposed (.pallet h)
        ((vacateClaim h p.place s).getD s))).setEntry h.index.1 { gen := h.gen + 1, rec? := none })
  ∧ ∀ (d : Fin 24) (s : State),
    let x := s.door d
    let r := x.last
    let t := s.updDoor d fun y => { y with remembered := none }
    let ends (v : State) : Prop := reconcileDoor d s = if (v.door d).notClosed then v else reevaluateHold (v.door d).room v
    let differs : Prop := reconcileDoor d s = enterFault d .reconcile t
    let shut : Prop := r.leaf = .closed ∧ r.stationFault = 0#8
    let whole (leaf : Leaf) : Prop := r.leaf = leaf ∧ r.sealOk = true ∧ r.trailer = true ∧ r.stationFault = 0#8
    let arrives (v : State) : State := if r.sealOk then placeDoor d .deflate (doorEnter d .arrived v) else doorEnter d .arrived v
    (x.remembered = some .opened → (whole .opened → ends (enterOpen d t)) ∧ (¬whole .opened → differs))
    ∧ (x.remembered = some .sealed → (whole .closed → ends (doorEnter d .sealed t)) ∧ (¬whole .closed → differs))
    ∧ (x.remembered = some .arrived →
      (shut → ends (if r.trailer then arrives t else trailerGone d (arrives t))) ∧ (¬shut → differs))
    ∧ (x.remembered = some .vacant →
      (shut → ends (if r.trailer then doorEnter d .arrived (doorEnter d .vacant t) else doorEnter d .vacant t))
      ∧ (¬shut → differs))
    ∧ (∀ st ∈ [DoorState.sealing, .opening, .closing, .unsealing], x.remembered = some st →
      (shut →
        (r.trailer = false → ends (trailerGone d t))
        ∧ (r.trailer = true → r.sealOk = true → x.session ≠ none → ends (confirmSeal d (doorEnter d .sealed t)))
        ∧ (r.trailer = true → ¬(r.sealOk = true ∧ x.session ≠ none) → ends (arrives t)))
      ∧ (¬shut → differs))
    ∧ (x.remembered = some .fault → ends (doorEnter d .fault t))

/-- R107, R114, R119. A flag byte above 01h is BAD_ARG. Probe p belongs to room p/4 at position p mod 4 (R103). The order of the
fields of the two reads is log entry 6. -/
def Obligations.ThermalRequestsAnswer : Prop :=
  AvailableIn 0x50 [.standby] ∧ AvailableIn 0x51 [.standby, .run] ∧ AvailableIn 0x52 allModes ∧ AvailableIn 0x53 allModes
  ∧ (∀ (f : RequestFrame) (s t : State) (p1 p0 a b : Byte), HandsOff 0x50 f s t → f.args = [p1, p0, a, b] →
    1 < a.toNat ∨ 1 < b.toNat → exec .probeSet s = refusedWith f .badArg t)
  ∧ (∀ (f : RequestFrame) (s t : State) (p : Fin 32) (fitted coil : Bool), HandsOff 0x50 f s t →
    f.args = be 2 p.1 ++ flag1 fitted ++ flag1 coil →
    let x := t.probe p
    let hub : StationId := .hub (probeRoom p)
    let status : ProbeStatus := if x.fitted = fitted then x.status else if fitted then .silent else .absent
    let u := t.updProbe p fun y => { y with fitted := fitted, coilSide := coil, status := status }
    let v := deriveRoom (probeRoom p) (if x.fitted = true ∧ fitted = false then clearAlarm .probeFault (.probe p) u else u)
    (t.configured hub = v.configured hub → exec .probeSet s = answered f .ok [] v)
    ∧ (t.configured hub ≠ v.configured hub →
      let w := v.updStation hub fun y => { y with link := .unconfirmed, missed := 0, slot := none, slotSent := false }
      exec .probeSet s = answered f .ok [] (if t.configured hub then clearAlarm .stationLost (.station hub) w else w)))
  ∧ (∀ (f : RequestFrame) (s t : State) (r : Fin 8) (lim : Int) (grace mask : Nat), HandsOff 0x51 f s t →
    -32768 ≤ lim → lim ≤ 32767 → grace < 65536 → mask < 65536 →
    f.args = be 2 r.1 ++ temp2 lim ++ be 2 grace ++ be 2 mask →
    let good : Prop := -500 ≤ lim ∧ lim ≤ 500 ∧ 60 ≤ grace ∧ grace ≤ 3600 ∧ mask ≤ 3600
    (good → exec .thermalSet s =
      answered f .ok [] (t.updThermal r fun x => { x with limit := lim, grace := grace, mask := mask }))
    ∧ (¬good → exec .thermalSet s = refusedWith f .badArg t))
  ∧ (∀ (f : RequestFrame) (s t : State) (r : Fin 8), HandsOff 0x52 f s t → f.args = be 2 r.1 →
    let x := t.thermal r
    exec .roomTempRead s = answered f .ok
      (temp2 x.limit ++ be 2 x.grace ++ be 2 x.mask ++ temp2 x.temp ++ flag1 x.known ++ [x.state.byte] ++ optTime x.warmSince
        ++ optTime x.staleSince ++ flag1 x.staleRaised ++ time4 x.maskUntil ++ flag1 x.coilExcluded
        ++ listOf (fun p : Fin 32 => be 2 p.1) ((roomProbes r).filter fun p => (t.probe p).counted) ++ time4 t.tsu.lastAccrual
        ++ optTime t.tsu.accrualDue) t)
  ∧ ∀ (f : RequestFrame) (s t : State) (p : Fin 32), HandsOff 0x53 f s t → f.args = be 2 p.1 →
    let x := t.probe p
    exec .probeRead s = answered f .ok
      (flag1 x.fitted ++ flag1 x.coilSide ++ temp2 x.reading ++ [x.status.byte] ++ flag1 x.counted ++ be 2 (p.1 / 4)
        ++ be 2 (p.1 % 4)) t

/-- R110, R111, R112, R115, R116, R42, R176 for the ROOM and ALARM causes, and R6 for the rooms of places. A deadline that is not
due is no event (log entry 2). The clearing of the two alarms at every evaluation of a room of kind UNUSED is log entry 15, the
clear of ROOM_STALE before the raise of ROOM_WARM log entry 39. -/
def Obligations.ThermalDeadlinesEvaluate : Prop :=
  (∀ (s : State) (r : Fin 8) (d : Time), s.watched r = true → d ≤ s.moc.clock →
    ((s.thermal r).graceEnd = some d → exec (.graceEnd r) s = .next (settle (evaluateRoom r s)))
    ∧ ((s.thermal r).maskEnd = some d → exec (.maskEnd r) s = .next (settle (evaluateRoom r s)))
    ∧ ((s.thermal r).staleDue = some d → exec (.staleAlarmExpiry r) s = .next (settle (evaluateRoom r s))))
  ∧ (∀ (s : State) (r : Fin 8),
    ((∀ d, (s.thermal r).graceEnd = some d → s.moc.clock < d) → exec (.graceEnd r) s = .next s)
    ∧ ((∀ d, (s.thermal r).maskEnd = some d → s.moc.clock < d) → exec (.maskEnd r) s = .next s)
    ∧ ((∀ d, (s.thermal r).staleDue = some d → s.moc.clock < d) → exec (.staleAlarmExpiry r) s = .next s))
  ∧ (∀ (s : State) (r : Fin 8), s.watched r = true →
    let x := s.thermal r
    let y := (evaluateRoom r s).thermal r
    let u := evaluateRoom r s
    let since := x.warmSince.getD s.moc.clock
    let waited : Prop := since + x.grace ≤ s.moc.clock ∧ x.maskUntil ≤ s.moc.clock
    (x.known = false → y.state = .stale ∧ y.staleSince = some (x.staleSince.getD s.moc.clock) ∧ y.warmSince = x.warmSince)
    ∧ (x.known = true → y.staleSince = none ∧ y.staleRaised = false)
    ∧ (x.known = true → x.temp ≤ x.limit → y.state = .normal ∧ y.warmSince = none)
    ∧ (x.known = true → x.limit < x.temp → x.state = .excursion → y.state = .excursion ∧ y.warmSince = x.warmSince)
    ∧ (x.known = true → x.limit < x.temp → x.state ≠ .excursion →
      y.warmSince = some since ∧ (waited → y.state = .excursion) ∧ (¬waited → y.state = .warm))
    ∧ (x.known = true → x.temp ≤ x.limit → u.alt = (s.alt.clear .roomWarm (.room r)).clear .roomStale (.room r))
    ∧ (x.known = true → x.limit < x.temp → x.state = .excursion ∨ ¬waited → u.alt = s.alt.clear .roomStale (.room r))
    ∧ (x.known = true → x.limit < x.temp → x.state ≠ .excursion → waited → u.lkp.pendingCauses.alarm = true
      ∧ u.alt = (s.alt.clear .roomStale (.room r)).raise s.moc.clock .roomWarm (.room r) (some (.temp x.temp)))
    ∧ (x.known = false →
      let late : Prop := x.staleRaised = false ∧ x.staleSince.getD s.moc.clock + 120 ≤ s.moc.clock
      (late → y.staleRaised = true ∧ u.lkp.pendingCauses.alarm = true
        ∧ u.alt = s.alt.raise s.moc.clock .roomStale (.room r) none)
      ∧ (¬late → y.staleRaised = x.staleRaised ∧ u.alt = s.alt))
    ∧ y.graceEnd = (if y.state = .warm ∧ s.moc.clock < since + x.grace then some (since + x.grace) else none)
    ∧ y.maskEnd = (if y.state = .warm ∧ s.moc.clock < x.maskUntil then some x.maskUntil else none)
    ∧ y.staleDue = (if y.state = .stale ∧ y.staleRaised = false then y.staleSince.map (· + 120) else none))
  ∧ (∀ (s : State) (r : Fin 8),
    let x := s.thermal r
    let u := evaluateRoom r s
    let y := u.thermal r
    (y.state = x.state → u.lkp.roomSet = s.lkp.roomSet ∧ u.lkp.pendingCauses.room = s.lkp.pendingCauses.room)
    ∧ (y.state ≠ x.state → u.lkp.roomSet = insertFin r s.lkp.roomSet ∧ u.lkp.pendingCauses.room = true)
    ∧ y.limit = x.limit ∧ y.grace = x.grace ∧ y.mask = x.mask ∧ y.temp = x.temp ∧ y.known = x.known
    ∧ y.maskUntil = x.maskUntil ∧ y.coilExcluded = x.coilExcluded ∧ ∀ q, q ≠ r → u.thermal q = s.thermal q)
  ∧ (∀ (s : State) (r : Fin 8), s.watched r = false →
    let y := (evaluateRoom r s).thermal r
    y.state = .unwatched ∧ y.warmSince = none ∧ y.staleSince = none ∧ y.staleRaised = false
    ∧ y.graceEnd = none ∧ y.maskEnd = none ∧ y.staleDue = none
    ∧ (evaluateRoom r s).alt =
      if s.kind r = .unused then (s.alt.clear .roomWarm (.room r)).clear .roomStale (.room r) else s.alt)
  ∧ (∀ (s : State) (r : Fin 8), s.watched r = true ↔ (s.mode = .run ∨ s.mode = .holdover) ∧ s.kind r ≠ .unused)
  ∧ (∀ (s : State) (d : Time), s.tsu.accrualDue = some d → d ≤ s.moc.clock →
    let u := s.liveHandles.foldl (fun (v : State) h =>
      match v.pallet? h with
      | some p => chargePallet h (v.chargeAmount (s.tsu.rooms.map tableEntry) p) v
      | none => v) s
    exec .accrualIntervalExpiry s = .next (settle (u.withTsu { u.tsu with
      lastAccrual := s.moc.clock, accrualDue := some (s.moc.clock + 60) })))
  ∧ (∀ s : State, (∀ d, s.tsu.accrualDue = some d → s.moc.clock < d) → exec .accrualIntervalExpiry s = .next s)
  ∧ (∀ x : RoomThermal,
    (x.state = .normal ∨ x.state = .warm ∨ x.state = .excursion → tableEntry x = some x.temp)
    ∧ (x.state = .stale ∨ x.state = .unwatched → tableEntry x = none))
  ∧ (∀ (s : State) (table : Vector (Option Temp) 8) (p : Pallet),
    let roomOf : Place → List (Fin 8)
      | .lane d => [(s.door d).room]
      | .slot n => (s.roomOfSlot n.1).toList
      | .floor r => [r]
      | _ => []
    let amount (r : Fin 8) : Nat :=
      match table.get r with
      | some v => (v - (s.cls p.cls).limit).toNat
      | none => (s.cls p.cls).excess
    let rooms : List (Fin 8) :=
      match p.place with
      | .carried o =>
        match s.order? o with
        | some x => roomOf x.origin ++ roomOf x.dest
        | none => []
      | q => roomOf q
    (rooms = [] → s.chargeAmount table p = 0)
    ∧ (rooms ≠ [] → (∃ r ∈ rooms, s.chargeAmount table p = amount r) ∧ ∀ r ∈ rooms, amount r ≤ s.chargeAmount table p))
  ∧ ∀ (s : State) (h : Handle) (p : Pallet) (n : Nat), TablesCanonical s → s.pallet? h = some p →
    ∃ q, (chargePallet h n s).pallet? h = some q ∧ q.exposure = (if n = 0 then p.exposure else min 65535 (p.exposure + n))
      ∧ (0 < n → (s.cls p.cls).budget ≤ q.exposure → q.holds.exposure = true)

/-- R104, R106, R109; entry i is for the probe at position i of the hub's room. The order of the alarm claims is log entry 39. -/
def Obligations.ProbeReportsSetTheProbes : Prop :=
  (∀ (r : Fin 8) (received : List Byte) (s : State) (a b c d : ProbeEntry), Answers (.hub r) (.probes a b c d) received s →
    let u := takeProbeEntry (probeAt r 1) b (takeProbeEntry (probeAt r 0) a (takeDelivery (.hub r) s))
    exec (.probeSetReport received) s = reported .probe
      (evaluateRoom r (deriveRoom r (takeProbeEntry (probeAt r 3) d (takeProbeEntry (probeAt r 2) c u)))))
  ∧ (∀ (s : State) (p : Fin 32) (en : ProbeEntry), (s.probe p).fitted = false → takeProbeEntry p en s = s)
  ∧ (∀ (s : State) (p : Fin 32) (en : ProbeEntry), (s.probe p).fitted = true →
    let status : ProbeStatus := match en.indication with
      | .present => if -500 ≤ en.reading ∧ en.reading ≤ 500 then .ok else .outOfRange
      | .sensorFault => .flagged
      | .notPresent => .absent
    let u := s.updProbe p fun x =>
      { x with status := status, reading := if en.indication = .present then en.reading else x.reading }
    ((s.probe p).status = status → takeProbeEntry p en s = u)
    ∧ ((s.probe p).status ≠ status → status = .ok → takeProbeEntry p en s = clearAlarm .probeFault (.probe p) u)
    ∧ ((s.probe p).status ≠ status → status ≠ .ok →
      takeProbeEntry p en s = raiseAlarm .probeFault (.probe p) (some (.probeStatus status)) u))
  ∧ ∀ (s : State) (r : Fin 8),
    let counts (p : Fin 32) : Prop := (s.probe p).fitted = true ∧ (s.probe p).status = .ok ∧ -500 ≤ (s.probe p).reading
      ∧ (s.probe p).reading ≤ 500 ∧ ¬((s.probe p).coilSide = true ∧ s.coilsHot r = true)
    let y := (deriveRoom r s).thermal r
    (∀ p ∈ roomProbes r, ((deriveRoom r s).probe p).counted = true ↔ counts p)
    ∧ ((∀ p ∈ roomProbes r, ¬counts p) → y.known = false ∧ y.temp = (s.thermal r).temp)
    ∧ ((∃ p ∈ roomProbes r, counts p) → y.known = true ∧ (∃ p ∈ roomProbes r, counts p ∧ y.temp = (s.probe p).reading)
      ∧ ∀ p ∈ roomProbes r, counts p → (s.probe p).reading ≤ y.temp)

/-- R122, R127, R140, R141, R143. A room above 7 or a flag byte above 01h is BAD_ARG. The order of the fields of EVAP_READ is log
entry 6, and the form of the demand's age log entry 5. -/
def Obligations.EvaporatorRequestsAnswer : Prop :=
  let settings (c : EvapConfig) : List Byte :=
    flag1 c.configured ++ be 2 c.room.1 ++ be 2 c.pumpdown ++ be 2 c.maxHeat ++ temp2 c.termination ++ be 2 c.drip
      ++ be 2 c.refreeze ++ temp2 c.fanStart ++ be 2 c.deferral ++ be 2 c.baseRate ++ be 2 c.doorRate ++ be 2 c.portalRate
  AvailableIn 0x60 [.standby] ∧ AvailableIn 0x61 [.run] ∧ AvailableIn 0x62 [.run] ∧ AvailableIn 0x63 [.run]
  ∧ AvailableIn 0x64 allModes
  ∧ (∀ (f : RequestFrame) (s t : State) (e1 e0 b r1 r0 : Byte) (rest : List Byte), HandsOff 0x60 f s t →
    f.args = e1 :: e0 :: b :: r1 :: r0 :: rest → 1 < b.toNat ∨ 8 ≤ beNat [r1, r0] → exec .evapSet s = refusedWith f .badArg t)
  ∧ (∀ (f : RequestFrame) (s t : State) (e : Fin 12) (c : EvapConfig), HandsOff 0x60 f s t → f.args = be 2 e.1 ++ settings c →
    (∀ n ∈ [c.pumpdown, c.maxHeat, c.drip, c.refreeze, c.deferral, c.baseRate, c.doorRate, c.portalRate], n < 65536) →
    (∀ x ∈ [c.termination, c.fanStart], -32768 ≤ x ∧ x ≤ 32767) →
    let x := t.evap e
    let good : Prop := (30 ≤ c.pumpdown ∧ c.pumpdown ≤ 300) ∧ (300 ≤ c.maxHeat ∧ c.maxHeat ≤ 3600)
      ∧ (-500 ≤ c.termination ∧ c.termination ≤ 500) ∧ (60 ≤ c.drip ∧ c.drip ≤ 900) ∧ (60 ≤ c.refreeze ∧ c.refreeze ≤ 900)
      ∧ (-500 ≤ c.fanStart ∧ c.fanStart ≤ 500) ∧ (5 ≤ c.deferral ∧ c.deferral ≤ 120) ∧ c.baseRate ≤ 1000 ∧ c.doorRate ≤ 1000
      ∧ c.portalRate ≤ 1000 ∧ c.fanStart < c.termination
    let unheard (y : Station) : Station := { y with link := .unconfirmed, missed := 0, slot := none, slotSent := false }
    (¬good → exec .evapSet s = refusedWith f .badArg t)
    ∧ (good →
      (x.cfg.configured ≠ c.configured ∨ x.cfg.room ≠ c.room → x.phase ≠ .idle → exec .evapSet s = refusedWith f .busy t)
      ∧ (x.cfg.configured = c.configured → x.cfg.room = c.room ∨ x.phase = .idle →
        exec .evapSet s = answered f .ok [] (t.updEvap e fun y => { y with cfg := c }))
      ∧ (x.phase = .idle → x.cfg.configured = false → c.configured = true → exec .evapSet s = answered f .ok []
        ((t.updEvap e fun _ => { ({} : Evap) with cfg := c, lost := true }).updStation (.evap e) unheard))
      ∧ (x.phase = .idle → x.cfg.configured = true → c.configured = false → exec .evapSet s = answered f .ok []
        (clearAlarm .stationLost (.station (.evap e))
          ((t.updEvap e fun _ => { ({} : Evap) with cfg := c }).updStation (.evap e) unheard)))))
  ∧ (∀ (f : RequestFrame) (s t : State) (e : Fin 12), f.args = be 2 e.1 →
    let x := t.evap e
    let unbid (y : Evap) : Evap := { y with forced := false, demandSince := none }
    let toIdle : State := (enterPhase e .idle none t).updEvap e unbid
    let undefer (u : State) : State := clearAlarm .defrostDeferred (.evap e) u
    (x.cfg.configured = false → (HandsOff 0x61 f s t → exec .defrostRequest s = refusedWith f .badArg t)
      ∧ (HandsOff 0x62 f s t → exec .defrostAbort s = refusedWith f .badArg t)
      ∧ (HandsOff 0x63 f s t → exec .evapRelease s = refusedWith f .badArg t))
    ∧ (x.cfg.configured = true →
      (HandsOff 0x61 f s t → x.phase = .idle → exec .defrostRequest s = answered f .accepted [] (raiseDemand e t))
      ∧ (HandsOff 0x61 f s t → x.phase ≠ .idle → exec .defrostRequest s = refusedWith f .already t)
      ∧ (HandsOff 0x62 f s t →
        (x.phase = .demanded → exec .defrostAbort s = answered f .ok [] (undefer toIdle))
        ∧ (x.phase = .allotted → exec .defrostAbort s = answered f .ok [] (allowancePass (undefer
          ((holdWithdrawal x.cfg.room e (toIdle.updEvap e fun y => { y with allowanceHeld := false })).updEvap e fun y =>
            { y with holdConfirmed := false }))))
        ∧ (x.phase = .pumpdown ∨ x.phase = .heat → exec .defrostAbort s = answered f .ok [] (undefer (enterDrip e t)))
        ∧ (x.phase = .idle ∨ x.phase = .drip ∨ x.phase = .refreeze ∨ x.phase = .fault →
          exec .defrostAbort s = refusedWith f .already t))
      ∧ (HandsOff 0x63 f s t → x.phase = .fault →
        let u := holdWithdrawal x.cfg.room e ((enterPhase e .idle none t).updEvap e fun y => { y with allowanceHeld := false })
        let v := (undefer (clearAlarm .defrostStuck (.evap e) u)).updEvap e fun y =>
          { y with forced := false, demandSince := none, holdConfirmed := false, heatTerminated := false }
        exec .evapRelease s = answered f .ok [] (allowancePass (placeEvap e .run v)))
      ∧ (HandsOff 0x63 f s t → x.phase ≠ .fault → exec .evapRelease s = refusedWith f .evapState t)))
  ∧ ∀ (f : RequestFrame) (s t : State) (e : Fin 12), HandsOff 0x64 f s t → f.args = be 2 e.1 →
    let x := t.evap e
    exec .evapRead s = answered f .ok
      (settings x.cfg ++ [x.phase.byte] ++ be 2 x.frost ++ flag1 x.forced ++ optTime x.demandSince ++ time4 x.phaseSince
        ++ optTime x.deadline ++ be 2 x.extensions ++ flag1 x.allowanceHeld ++ flag1 x.holdConfirmed ++ flag1 x.heatTerminated
        ++ flag1 x.lost ++ ([x.last.phase.byte] ++ temp2 x.last.coil ++ flag1 x.last.heaterOn ++ flag1 x.last.extension)
        ++ be 2 t.dfc.allowance ++ be 2 t.allowanceUsed ++ optField 2 ((t.waitingPosition e).map (be 2))
        ++ optTime (x.demandSince.map fun d => t.moc.clock - d)) t

/-- R125, R130, R134 to R137, each entry with its phase record, command and cause (R131), HEAT and REFREEZE with the temperature
setting that they use (R122). The order of the demands of one frost expiry is log entry 41, the next expiry after a late one log
entry 42; a deadline that is not due, is absent, or belongs to another phase is no event (log entry 2). -/
def Obligations.DefrostDeadlinesExpire : Prop :=
  (∀ (s : State) (d : Time), s.dfc.frostDue = some d →
    (d ≤ s.moc.clock →
      let u := s.withDfc { s.dfc with frostDue := some (s.moc.clock + 60) }
      let v := (List.finRange 12).foldl (fun (w : State) e =>
        let x := w.evap e
        if x.cfg.configured = true ∧ (x.phase = .idle ∨ x.phase = .demanded ∨ x.phase = .allotted) then
          w.updEvap e fun y =>
            { y with frost := min 1000 (y.frost + (x.cfg.baseRate + w.openDoors x.cfg.room * x.cfg.doorRate)) }
        else w) u
      exec .frostIntervalExpiry s = .next (settle ((List.finRange 12).foldl (fun w e => demandIfFull e w) v)))
    ∧ (s.moc.clock < d → exec .frostIntervalExpiry s = .next s))
  ∧ (∀ s : State, s.dfc.frostDue = none → exec .frostIntervalExpiry s = .next s)
  ∧ ∀ (s : State) (e : Fin 12),
    let x := s.evap e
    let enters (p : Phase) (c : CtlPhase) (deadline : Option Time) (f : Evap → Evap) : State :=
      let u := s.updEvap e fun y => f { y with phase := p, phaseSince := s.moc.clock, deadline := deadline, deferralDue := none }
      (u.withLkp { u.lkp with
        pendingCauses := { u.lkp.pendingCauses with defrost := true }, defrostSet := insertFin e u.lkp.defrostSet }).updStation
          (.evap e) fun y => { y with slot := some (.evap c), slotSent := false }
    (∀ d, x.deferralDue = some d → d ≤ s.moc.clock →
      let u := raiseAlarm .defrostDeferred (.evap e) none (s.updEvap e fun y => { y with forced := true, deferralDue := none })
      (x.phase = .demanded → exec (.deferralExpiry e) s = .next (settle (allowancePass u)))
      ∧ (x.phase = .allotted → exec (.deferralExpiry e) s = .next (settle (forcingClaim x.cfg.room e u))))
    ∧ ((∀ d, x.deferralDue = some d → s.moc.clock < d) ∨ (x.phase ≠ .demanded ∧ x.phase ≠ .allotted) →
      exec (.deferralExpiry e) s = .next s)
    ∧ (x.deadline = none ∨ x.phase ≠ .pumpdown → exec (.pumpdownDeadlineExpiry e) s = .next s)
    ∧ (x.deadline = none ∨ x.phase ≠ .heat → exec (.maxHeatExpiry e) s = .next s)
    ∧ (x.deadline = none ∨ x.phase ≠ .drip → exec (.dripDeadlineExpiry e) s = .next s)
    ∧ (x.deadline = none ∨ x.phase ≠ .refreeze → exec (.refreezeDeadlineExpiry e) s = .next s)
    ∧ ∀ d, x.deadline = some d →
      (d ≤ s.moc.clock →
        (x.phase = .pumpdown → exec (.pumpdownDeadlineExpiry e) s =
          .next (settle (enters .heat .heat (some (s.moc.clock + x.cfg.maxHeat)) fun y =>
            { y with terminationInUse := x.cfg.termination })))
        ∧ (x.phase = .heat → exec (.maxHeatExpiry e) s =
          .next (settle (raiseAlarm .defrostOverrun (.evap e) (some (.temp x.last.coil))
            (enters .drip .drip (some (s.moc.clock + x.cfg.drip)) fun y => { y with extensions := 0 }))))
        ∧ (x.phase = .drip →
          let u := (enterPhase e .refreeze (some (s.moc.clock + x.cfg.refreeze)) s).updEvap e fun y =>
            { y with fanStartInUse := x.cfg.fanStart, allowanceHeld := false }
          exec (.dripDeadlineExpiry e) s =
            .next (settle (allowancePass (placeEvap e .refreeze (holdWithdrawal x.cfg.room e u)))))
        ∧ (x.phase = .refreeze →
          let u := enters .idle .run none fun y =>
            { y with frost := 0, forced := false, demandSince := none, holdConfirmed := false, heatTerminated := false }
          exec (.refreezeDeadlineExpiry e) s =
            .next (settle (if x.heatTerminated then clearAlarm .defrostOverrun (.evap e) u else u))))
      ∧ (s.moc.clock < d → exec (.pumpdownDeadlineExpiry e) s = .next s ∧ exec (.maxHeatExpiry e) s = .next s
        ∧ exec (.dripDeadlineExpiry e) s = .next s ∧ exec (.refreezeDeadlineExpiry e) s = .next s)

/-- R123, R124, R135 to R137, with the temperatures in use since the entry to the phase (R122); `u` is the state with the report
stored, `v` the one its phase effect leaves. -/
def Obligations.ControllerReportsActByPhase : Prop :=
  ∀ (e : Fin 12) (received : List Byte) (s : State) (r : CtlReport), Answers (.evap e) (.controller r) received s →
    let x := s.evap e
    let u := (takeDelivery (.evap e) s).updEvap e fun y => { y with last := r }
    let expected : Phase → Option CtlPhase
      | .idle | .demanded | .allotted => some .run
      | .pumpdown => some .pumpdown
      | .heat => some .heat
      | .drip => some .drip
      | .refreeze => some .refreeze
      | .fault => none
    ∃ v, exec (.controllerStatus received) s = reported .evap
        (match expected (v.evap e).phase with
          | some c => if r.phase = c ∧ (r.heaterOn = true ↔ c = .heat) then v else placeEvap e c v
          | none => v)
      ∧ (x.phase = .heat → x.terminationInUse ≤ r.coil → v = enterDrip e (u.updEvap e fun y => { y with heatTerminated := true }))
      ∧ (x.phase = .heat → r.coil < x.terminationInUse → v = u)
      ∧ (x.phase = .drip →
        let asks : Prop := r.extension = true ∧ x.last.extension = false ∧ x.extensions < 2
        (asks → v = u.updEvap e fun y => { y with extensions := y.extensions + 1, deadline := y.deadline.map (· + 120) })
        ∧ (¬asks → v = u))
      ∧ (x.phase = .refreeze → r.coil ≤ x.fanStartInUse → v = endRefreeze e u)
      ∧ (x.phase = .refreeze → x.fanStartInUse < r.coil → v = u)
      ∧ (x.phase ≠ .heat → x.phase ≠ .drip → x.phase ≠ .refreeze → v = u)

/-- R148, R149, R150, R152. -/
def Obligations.AlarmTableClaims : Prop :=
  ∀ (s : State) (k : AlarmKind) (sub : Subject),
    let hit (r : AlarmRec) : Prop := r.kind = k ∧ r.subject = sub
    (∀ v : Option AlarmValue,
      let raised (a : Alt) : State :=
        (s.withAlt a).withLkp { s.lkp with pendingCauses := { s.lkp.pendingCauses with alarm := true } }
      let fresh : AlarmRec :=
        { kind := k, subject := sub, state := .raised, firstRaised := s.moc.clock, lastRaised := s.moc.clock, count := 1
          value := v }
      (∀ (front back : List AlarmRec) (r : AlarmRec), AlarmsBounded s → s.alt.records = front ++ r :: back → hit r →
        let merged : AlarmRec :=
          { r with
            state := .raised, lastRaised := s.moc.clock, count := min 255 (r.count + 1)
            value := if v = none then r.value else v }
        raiseAlarm k sub v s = raised { s.alt with records := front ++ merged :: back })
      ∧ ((∀ r ∈ s.alt.records, ¬hit r) →
        (s.alt.records.length < 64 → raiseAlarm k sub v s = raised { s.alt with records := s.alt.records ++ [fresh] })
        ∧ (∀ (front back : List AlarmRec) (r : AlarmRec), 64 ≤ s.alt.records.length →
          s.alt.records = front ++ r :: back → r.state = .cleared → (∀ q ∈ front, q.state ≠ .cleared) →
          raiseAlarm k sub v s = raised { s.alt with records := front ++ back ++ [fresh] })
        ∧ (64 ≤ s.alt.records.length → (∀ q ∈ s.alt.records, q.state ≠ .cleared) →
          raiseAlarm k sub v s = raised { s.alt with unlisted := min 255 (s.alt.unlisted + 1) })))
    ∧ (∀ (front back : List AlarmRec) (r : AlarmRec), AlarmsBounded s → s.alt.records = front ++ r :: back → hit r →
      (r.state = .raised → clearAlarm k sub s =
        s.withAlt { s.alt with records := front ++ { r with state := .cleared } :: back })
      ∧ (r.state = .acked → clearAlarm k sub s = s.withAlt { s.alt with records := front ++ back })
      ∧ (r.state = .cleared → clearAlarm k sub s = s))
    ∧ ((∀ r ∈ s.alt.records, ¬hit r) → clearAlarm k sub s = s)

/-- R153, R154, R155, R156; ALL is kind 00h with subject bytes 0 (11.5). Counts of two bytes are log entry 6, a start position of two
bytes log entry 5. -/
def Obligations.AlarmRequestsAnswer : Prop :=
  AvailableIn 0x70 allModes ∧ AvailableIn 0x71 allModes ∧ AvailableIn 0x72 allModes ∧ AvailableIn 0x73 allModes
  ∧ (∀ (f : RequestFrame) (s t : State) (n : Nat), HandsOff 0x70 f s t → n < 64 → f.args = be 2 n →
    exec .alarmList s = answered f .ok
      ([BitVec.ofNat 8 t.alt.records.length, BitVec.ofNat 8 t.alt.unlisted]
        ++ listOf (fun x => alarmBytes x.2 x.1) ((t.alt.records.zipIdx.drop n).take 8)) t)
  ∧ (∀ (f : RequestFrame) (s t : State) (kind type : Byte) (n : Nat), n < 65536 → f.args = [kind, type] ++ be 2 n →
    let all : Prop := kind = 0#8 ∧ type = 0#8 ∧ n = 0
    (HandsOff 0x71 f s t → all → exec .alarmAck s = answered f .ok
      (be 2 (t.alt.records.filter fun r => r.state = .raised).length
        ++ be 2 (t.alt.records.filter fun r => r.state = .cleared).length)
      (t.withAlt { t.alt with records := t.alt.records.filterMap fun r =>
        if r.state = .cleared then none else some { r with state := .acked } }))
    ∧ (HandsOff 0x71 f s t → ¬all → readPair kind type n = none → exec .alarmAck s = refusedWith f .badArg t)
    ∧ (HandsOff 0x72 f s t → readPair kind type n = none → exec .alarmRead s = refusedWith f .badArg t)
    ∧ ∀ k sub, readPair kind type n = some (k, sub) →
      let hit (r : AlarmRec) : Prop := r.kind = k ∧ r.subject = sub
      ((∀ r ∈ t.alt.records, ¬hit r) → (HandsOff 0x71 f s t → exec .alarmAck s = refusedWith f .notFound t)
        ∧ (HandsOff 0x72 f s t → exec .alarmRead s = refusedWith f .notFound t))
      ∧ ∀ (front back : List AlarmRec) (r : AlarmRec), AlarmsBounded t → t.alt.records = front ++ r :: back → hit r →
        (HandsOff 0x71 f s t →
          (r.state = .raised → exec .alarmAck s = answered f .ok []
            (t.withAlt { t.alt with records := front ++ { r with state := .acked } :: back }))
          ∧ (r.state = .cleared → exec .alarmAck s = answered f .ok [] (t.withAlt { t.alt with records := front ++ back }))
          ∧ (r.state = .acked → exec .alarmAck s = refusedWith f .already t))
        ∧ (HandsOff 0x72 f s t → exec .alarmRead s = answered f .ok (alarmBytes front.length r) t))
  ∧ (∀ (k : AlarmKind) (sub : Subject) (kind type : Byte) (n : Nat), n < 65536 →
    (readPair kind type n = some (k, sub) ↔ kind = k.byte ∧ type.toNat = k.subjectType ∧ sub.bytes = type :: be 2 n
      ∧ ∀ x, sub ≠ .station (.term x)))
  ∧ ∀ (f : RequestFrame) (s t : State), HandsOff 0x73 f s t → f.args = [] →
    exec .alarmOverflowClear s = answered f .ok (be 2 t.alt.unlisted) (t.withAlt { t.alt with unlisted := 0 })

/-- R160, R162, R163, R164, R169, with what the owners do at a loss (R72, R93, R105, R138) and at a rehearing (R72, R139). An event
that cannot occur changes nothing (log entry 2). The order of a loss's alarm claims is log entries 39 and 48, the number a poll
carries log entry 47, the deferral wait that a FAULT returned to ALLOTTED starts log entry 31. -/
def Obligations.LanesPollAndJudge : Prop :=
  (∀ (s : State) (l : Lane), let x := s.laneRec l
    (x.polling = .polled → x.roundDue ≤ s.timeBase →
      let u := s.updLane l fun y =>
        { y with roundDue := y.roundDue + (match l with | .door => 1 | .probe => 5 | .evap => 5 | .term => 1) }
      (x.position = none → exec (.laneRound l) s = .next (settle (beginRound l u)))
      ∧ (x.position ≠ none → exec (.laneRound l) s = .next (settle (u.updLane l fun y => { y with owed := y.owed + 1 }))))
    ∧ (¬(x.polling = .polled ∧ x.roundDue ≤ s.timeBase) → exec (.laneRound l) s = .next s))
  ∧ (∀ (s : State) (l : Lane), let u := s.updLane l fun y => { y with todo := s.configuredStations l }
    (∀ st, st ∈ s.configuredStations l ↔ st.lane = l ∧ s.configured st = true)
    ∧ (s.configuredStations l).Pairwise (fun a b => a.address < b.address)
    ∧ beginRound l s = nextPoll l u)
  ∧ (∀ (s : State) (l : Lane),
    ((s.laneRec l).todo = [] → nextPoll l s = s.updLane l fun y => { y with position := none })
    ∧ ∀ st rest, (s.laneRec l).todo = st :: rest → nextPoll l s =
      (s.updStation st fun y => { y with seqNo := y.seqNo + 1, slotSent := y.slot.isSome }).updLane l fun y =>
        { y with
          position := some st, todo := rest
          lastPoll := pollBytes st ((s.station st).seqNo + 1) (s.station st).slot })
  ∧ (∀ (s : State) (l : Lane) (st : StationId) (received : List Byte), (s.laneRec l).position = some st →
    let x := s.station st
    (judgeAnswer st x.seqNo received = none →
      let n := min 3 (x.missed + 1)
      let u := s.updStation st fun y => { y with missed := n, slotSent := false }
      let gone : Prop := x.link ≠ .lost ∧ ((s.laneRec l).polling = .rollCall ∨ n = 3)
      let v := ownerLost st (u.updStation st fun y => { y with link := .lost, missed := 3 })
      (¬gone → exec (.missedPoll l received) s = reported l u)
      ∧ (gone → s.mode = .holdover ∨ s.mode = .retain → exec (.missedPoll l received) s = reported l v)
      ∧ (gone → s.mode ≠ .holdover → s.mode ≠ .retain → exec (.missedPoll l received) s = reported l
        (match st with
          | .term k => raiseAlarm .terminalLost (.terminal k) none v
          | st => raiseAlarm .stationLost (.station st) none v)))
    ∧ (judgeAnswer st x.seqNo received ≠ none → exec (.missedPoll l received) s = .next s))
  ∧ (∀ (s : State) (st : StationId), takeDelivery st s = s.updStation st fun y =>
    { y with slot := if y.slotSent then none else y.slot, slotSent := false, missed := 0 })
  ∧ (∀ (s : State) (st : StationId) (rep : Report) (received : List Byte), (s.laneRec st.lane).position = some st →
    judgeAnswer st (s.station st).seqNo received = some rep → (s.station st).link ≠ .heard →
    let u := (takeDelivery st s).updStation st fun y => { y with link := .heard }
    let v := match st with
      | .term k => clearAlarm .terminalLost (.terminal k) u
      | st => clearAlarm .stationLost (.station st) u
    exec (rep.row received) s = reported st.lane (takeReport st false rep (ownerHeard st v)))
  ∧ (∀ (l : Lane) (s : State), let t := nextPoll l s
    let due : Prop := (t.laneRec l).position = none ∧ (t.laneRec l).polling = .polled ∧ 0 < (t.laneRec l).owed
    (due → pollEnded l s = beginRound l (t.updLane l fun y => { y with owed := y.owed - 1 })) ∧ (¬due → pollEnded l s = t))
  ∧ (∀ (d : Fin 24) (s : State), let x := s.door d
    let t := doorEnter d .offline (s.updDoor d fun y => { y with remembered := some x.state })
    (x.state = .offline → ownerLost (.door d) s = s)
    ∧ (x.state ≠ .offline → x.state ≠ .opened → ownerLost (.door d) s = placeDoor d .stop t)
    ∧ (x.state = .opened → ownerLost (.door d) s = placeDoor d .stop
      (departureNotice x.useList (clearAlarm .doorOpenLong (.door d) (t.updDoor d fun y =>
        { y with
          useList := []
          session := y.session.map fun z =>
            { z with openSeconds := addOpenSeconds z.openSeconds (s.moc.clock - y.openSince.getD s.moc.clock) }
          openSince := none, openWaitDue := none }))))
    ∧ ownerHeard (.door d) s = s)
  ∧ (∀ (r : Fin 8) (s : State),
    let silent (u : State) (p : Fin 32) : State :=
      let v := u.updProbe p fun x => { x with status := .silent }
      if (u.probe p).fitted = false then u
      else if (u.probe p).status = .silent then v
      else raiseAlarm .probeFault (.probe p) (some (.probeStatus .silent)) v
    ownerLost (.hub r) s = evaluateRoom r (deriveRoom r ((roomProbes r).foldl silent s)) ∧ ownerHeard (.hub r) s = s)
  ∧ (∀ (e : Fin 12) (s : State), let x := s.evap e
    let lost := s.updEvap e fun y => { y with lost := true }
    let heard := s.updEvap e fun y => { y with lost := false }
    (x.phase = .idle ∨ x.phase = .demanded ∨ x.phase = .refreeze ∨ x.phase = .fault → ownerLost (.evap e) s = lost)
    ∧ (x.phase = .pumpdown ∨ x.phase = .heat ∨ x.phase = .drip → ownerLost (.evap e) s =
      raiseAlarm .defrostStuck (.evap e) none (enterPhase e .fault none lost))
    ∧ (x.phase = .allotted → ownerLost (.evap e) s = allowancePass (startDeferral e
      ((holdWithdrawal x.cfg.room e ((enterPhase e .demanded none lost).updEvap e fun y => { y with allowanceHeld := false })).updEvap
        e fun y => { y with holdConfirmed := false })))
    ∧ (x.phase = .fault → x.holdConfirmed = true → ownerHeard (.evap e) s =
      clearAlarm .defrostStuck (.evap e) (enterDrip e heard))
    ∧ (x.phase = .fault → x.holdConfirmed = false → ownerHeard (.evap e) s =
      clearAlarm .defrostStuck (.evap e) (startDeferral e (enterPhase e .allotted none heard)))
    ∧ (x.phase = .demanded → ownerHeard (.evap e) s = allowancePass heard)
    ∧ (x.phase ≠ .fault → x.phase ≠ .demanded → ownerHeard (.evap e) s = heard))
  ∧ ∀ (k : Fin 16) (s : State), let x := s.terminal k
    let off := s.updTerminal k fun y => { y with state := .offline }
    let idle := s.updTerminal k fun y => { y with state := .idle, idleSince := s.moc.clock, bound := none }
    (x.state = .idle ∨ x.state = .carrying → ownerLost (.term k) s = off)
    ∧ (x.state = .offline → ownerLost (.term k) s = s)
    ∧ (∀ o y, x.state = .granted → x.bound = some o → s.order? o = some y → ownerLost (.term k) s = dispatchPass
      (((leaveUseList y.routeDoor o s).updOrder o fun z => { z with state := .queued, terminal := none }).updTerminal k fun z =>
        { z with state := .offline, bound := none, revokeDue := some o }))
    ∧ (x.state ≠ .offline → ownerHeard (.term k) s = s)
    ∧ (x.state = .offline → x.bound = none →
      (x.revokeDue = none → ownerHeard (.term k) s = dispatchPass idle)
      ∧ ∀ o, x.revokeDue = some o → ownerHeard (.term k) s =
        dispatchPass (placeTerm k (.revoke o) (idle.updTerminal k fun y => { y with revokeDue := none })))
    ∧ ∀ o y, x.state = .offline → x.bound = some o → s.order? o = some y → ownerHeard (.term k) s =
      placeTerm k (.divert o y.dest) (s.updTerminal k fun z => { z with state := .carrying })

/-- R189 with R118 and R128, R190, R192, R196. A presence flag is 00h or 01h (R201); that an absent value with other bytes is
BAD_ARG is log entry 50. -/
def Obligations.SiteRequestsAnswer : Prop :=
  AvailableIn 0x04 [.standby] ∧ AvailableIn 0x05 [.standby] ∧ AvailableIn 0x06 [.run] ∧ AvailableIn 0x07 allModes
  ∧ (∀ (f : RequestFrame) (s t : State) (a b c3 c2 c1 c0 n1 n0 : Byte), HandsOff 0x04 f s t →
    f.args = [a, c3, c2, c1, c0, b, n1, n0] →
    1 < a.toNat ∨ 1 < b.toNat ∨ (a = 0#8 ∧ beNat [c3, c2, c1, c0] ≠ 0) ∨ (b = 0#8 ∧ beNat [n1, n0] ≠ 0) →
    exec .siteSet s = refusedWith f .badArg t)
  ∧ (∀ (f : RequestFrame) (s t : State) (clock allowance : Option Nat), HandsOff 0x04 f s t →
    (∀ n ∈ clock, n < 4294967296) → (∀ n ∈ allowance, n < 65536) →
    f.args = optField 4 (clock.map (be 4)) ++ optField 2 (allowance.map (be 2)) →
    let bad : Prop := ∃ n, allowance = some n ∧ (n < 1 ∨ 4 < n)
    let low : Prop := ∃ n, allowance = some n ∧ n < t.allowanceUsed
    let u := t.withDfc { t.dfc with allowance := allowance.getD t.dfc.allowance }
    (bad → exec .siteSet s = refusedWith f .badArg t)
    ∧ (¬bad → low → exec .siteSet s = refusedWith f .busy t)
    ∧ (¬bad → ¬low → clock = none →
      exec .siteSet s = answered f .ok (time4 t.moc.clock ++ be 2 u.dfc.allowance) u)
    ∧ ∀ c, ¬bad → ¬low → clock = some c →
      let shift (x : Time) : Time := x + c - t.moc.clock
      let a := u.withTsu { u.tsu with
        lastAccrual := c - (t.moc.clock - u.tsu.lastAccrual)
        rooms := u.tsu.rooms.map fun x => { x with maskUntil := shift x.maskUntil } }
      let b := a.withDfc { a.dfc with evaps := a.dfc.evaps.map fun x =>
        { x with demandSince := x.demandSince.map shift, phaseSince := shift x.phaseSince, deadline := x.deadline.map shift } }
      let d := b.withDkc { b.dkc with doors := b.dkc.doors.map fun x =>
        { x with closeCompleted := shift x.closeCompleted, stateSince := shift x.stateSince } }
      exec .siteSet s = answered f .ok (be 4 c ++ be 2 u.dfc.allowance)
        (d.withMoc { d.moc with
          clock := c, modeSince := shift d.moc.modeSince, stoppedAt := d.moc.stoppedAt.map shift }))
  ∧ (∀ (f : RequestFrame) (s t : State) (order : List Block), HandsOff 0x05 f s t → f.args = [] →
    let early : Prop := ∃ w, t.moc.stoppedAt = some w ∧ t.moc.clock < w + 30
    (t.moc.supplyFail = true → exec (.startSite order) s = refusedWith f .supply t)
    ∧ (t.moc.supplyFail = false → early → exec (.startSite order) s = refusedWith f .tooSoon t)
    ∧ (t.moc.supplyFail = false → ¬early → exec (.startSite order) s = answered f .accepted []
      (enterMode .checking order (setSelfCheck .inProgress
        (t.withMoc { t.moc with rollCounts := Vector.replicate 4 0 })))))
  ∧ (∀ (f : RequestFrame) (s t : State) (order : List Block), HandsOff 0x06 f s t → f.args = [] →
    let early : Prop := t.moc.clock < t.moc.modeSince + 30
    let busy : Prop := (∃ x ∈ t.orders, x.2.state = .granted ∨ x.2.state = .carrying)
      ∨ (∃ d, (t.door d).state ∈ [DoorState.sealing, .opening, .opened, .closing, .unsealing]) ∨ 0 < t.allowanceUsed
    (early → exec (.stopSite order) s = refusedWith f .tooSoon t)
    ∧ (¬early → busy → exec (.stopSite order) s = refusedWith f .busy t)
    ∧ (¬early → ¬busy → exec (.stopSite order) s = answered f .ok []
      (enterMode .standby order (t.withMoc { t.moc with stoppedAt := some t.moc.clock }))))
  ∧ ∀ (f : RequestFrame) (s t : State), HandsOff 0x07 f s t → f.args = [] →
    let m := t.moc
    exec .readMode s = answered f .ok
      ([m.mode.byte] ++ time4 m.modeSince ++ optField 1 (m.remembered.map fun x => [x.byte]) ++ optTime m.stoppedAt
        ++ [if m.strap = .terminal then 1#8 else 0#8] ++ m.selfCheck.bytes ++ m.rollCounts.toList.flatMap (be 2)
        ++ flag1 m.supplyFail ++ flag1 m.batteryLow ++ time4 m.clock ++ be 2 t.dfc.allowance) t

/-- R184, R193, R194, R195, with R93 and R167; then a mode change with the notices of its blocks, MDS (R73), TSU (R105, R110, R115,
R117 with R43) and DFC (R142). A line already at its level is no event (log entry 2). SUPPLY_LOSS before the notices, and the order
of the notices, are the model's choice (log entries 4 and 25); the orders in which every room is evaluated and waits due at an entry
to RUN expire are log entries 40, 41 and 12; the evaluation at an entry to HOLDOVER is log entry 45, the gap rule from HOLDOVER log
entry 46, the deferral limit used at an entry to RUN log entry 53. That the orders of DKC's departure notices get REVOKE at an entry
to RETAIN at which DKC is told first is log entry 54. -/
def Obligations.SupplyLinesChangeTheMode : Prop :=
  (∀ (order : List Block) (s : State), let m := s.moc
    let taken (f : Moc → Moc) : State := setCause .supply (s.withMoc (f m))
    let fails := taken fun x => { x with supplyFail := true }
    let low := taken fun x => { x with batteryLow := true }
    let retains (u : State) : State :=
      let v := raiseAlarm .supplyLoss .site none (if m.mode = .checking then setSelfCheck .supply u else u)
      enterMode .retain order (v.withMoc { v.moc with
        remembered := some (if m.mode = .checking then .standby else m.mode) })
    let returns := taken fun x => { x with supplyFail := false }
    let forgets := returns.withMoc { returns.moc with remembered := none }
    (m.supplyFail = true → exec (.supplyFailActive order) s = .next s)
    ∧ (m.supplyFail = false →
      (m.batteryLow = true → m.mode ≠ .retain → exec (.supplyFailActive order) s = .next (settle (retains fails)))
      ∧ (m.batteryLow = false → m.mode = .run → exec (.supplyFailActive order) s =
        .next (settle (enterMode .holdover order (raiseAlarm .supplyLoss .site none fails))))
      ∧ (m.batteryLow = false → m.mode = .checking → exec (.supplyFailActive order) s =
        .next (settle (enterMode .standby order (raiseAlarm .supplyLoss .site none (setSelfCheck .supply fails)))))
      ∧ (m.batteryLow = false → m.mode = .standby → exec (.supplyFailActive order) s =
        .next (settle (raiseAlarm .supplyLoss .site none fails)))
      ∧ (m.mode = .retain ∨ (m.mode = .holdover ∧ m.batteryLow = false) →
        exec (.supplyFailActive order) s = .next (settle fails)))
    ∧ (m.supplyFail = false → exec (.supplyFailInactive order) s = .next s)
    ∧ (m.supplyFail = true →
      (m.mode = .holdover → exec (.supplyFailInactive order) s = .next (settle (enterMode .run order returns)))
      ∧ (m.mode = .retain → m.remembered = some .run ∨ m.remembered = some .holdover →
        exec (.supplyFailInactive order) s = .next (settle (enterMode .run order forgets)))
      ∧ (m.mode = .retain → m.remembered = some .standby →
        exec (.supplyFailInactive order) s = .next (settle (enterMode .standby order forgets)))
      ∧ (m.mode = .standby ∨ m.mode = .checking ∨ m.mode = .run →
        exec (.supplyFailInactive order) s = .next (settle returns)))
    ∧ (m.batteryLow = true → exec (.batteryLowActive order) s = .next s)
    ∧ (m.batteryLow = false →
      (m.supplyFail = true → m.mode ≠ .retain → exec (.batteryLowActive order) s = .next (settle (retains low)))
      ∧ (m.supplyFail = false ∨ m.mode = .retain → exec (.batteryLowActive order) s = .next (settle low)))
    ∧ (m.batteryLow = true → exec .batteryLowInactive s = .next (settle (taken fun x => { x with batteryLow := false })))
    ∧ (m.batteryLow = false → exec .batteryLowInactive s = .next s))
  ∧ (∀ (entered : Mode) (order : List Block) (s : State), let u := enterMode entered order s
    u.moc = { s.moc with
        mode := entered, modeSince := s.moc.clock, rollCallDue := none, checksDue := decide (entered = .checking) }
    ∧ u.lkp.pendingCauses.supply = true
    ∧ (entered ≠ .run → u.pdr = s.pdr ∧ u.ctb = s.ctb)
    ∧ (∀ l, let p := (u.laneRec l).polling
      (entered = .standby ∨ entered = .retain → p = .stopped) ∧ (entered = .run → p = .polled)
      ∧ (entered = .holdover → p = if l = .door ∨ l = .evap then .stopped else .polled))
    ∧ (∀ d, entered = .standby ∨ entered = .holdover ∨ entered = .retain → (u.door d).inService = true →
      (u.door d).state = .offline)
    ∧ (∀ b : Block, (completeOrder order).count b = 1)
    ∧ let v := (s.withMoc { s.moc with
          mode := entered, modeSince := s.moc.clock, rollCallDue := none, checksDue := decide (entered = .checking) }).withLkp
        { s.lkp with pendingCauses := { s.lkp.pendingCauses with supply := true } }
      u = (completeOrder order).foldl (fun w b => blockNotice s.mode entered b w)
        (if entered = .run then clearAlarm .supplyLoss .site v else v))
  ∧ (∀ (left entered : Mode) (s : State),
    let back := if left = .run then
        (s.ordersIn .granted).foldl (fun u o => if entered = .retain then requeueWithRevokeDue o u else requeueAndRevoke o u) s
      else s
    let gone := (List.finRange 16).foldl (fun (u : State) k => u.updTerminal k fun x =>
      if x.state = .idle ∨ x.state = .granted ∨ x.state = .carrying then { x with state := .offline } else x) back
    (entered = .standby ∨ entered = .retain → blockNotice left entered .mds s = gone)
    ∧ (entered = .run → blockNotice left entered .mds s = dispatchPass back)
    ∧ (entered = .checking ∨ entered = .holdover → blockNotice left entered .mds s = back))
  ∧ (∀ (s : State) (o : OrderId) (x : Order) (k : Fin 16), s.order? o = some x → x.state = .granted → x.terminal = some k →
    let free := ((leaveUseList x.routeDoor o s).updOrder o fun y => { y with state := .queued, terminal := none }).updTerminal k
      fun y => { y with state := .idle, idleSince := s.moc.clock, bound := none }
    requeueAndRevoke o s = placeTerm k (.revoke o) free
    ∧ requeueWithRevokeDue o s = free.updTerminal k fun y => { y with revokeDue := some o })
  ∧ (∀ (left entered : Mode) (s : State),
    let rooms (f : Fin 8 → State → State) (u : State) : State := (List.finRange 8).foldl (fun w r => f r w) u
    let stopped := s.withTsu { s.tsu with accrualDue := none }
    let silent := s.withTsu { s.tsu with
      accrualDue := none, probes := s.tsu.probes.map fun x => if x.fitted then { x with status := .silent } else x }
    let minutes := (s.moc.clock - s.tsu.lastAccrual) / 60
    let charged := s.liveHandles.foldl (fun (u : State) h =>
      match u.pallet? h with
      | some p => if u.roomsUsed p = [] then u else chargePallet h (minutes * (u.cls p.cls).excess) u
      | none => u) s
    let starts (u : State) : State := rooms evaluateRoom (if left = .holdover then u
      else u.withTsu { u.tsu with accrualDue := some (u.tsu.lastAccrual + 60) })
    (entered = .standby ∨ entered = .retain →
      blockNotice left entered .tsu s = rooms evaluateRoom (rooms deriveRoom silent))
    ∧ (entered = .checking → blockNotice left entered .tsu s = rooms evaluateRoom stopped)
    ∧ (entered = .holdover → blockNotice left entered .tsu s = rooms evaluateRoom s)
    ∧ (entered = .run →
      (s.moc.clock < s.tsu.lastAccrual →
        blockNotice left entered .tsu s = starts (s.withTsu { s.tsu with lastAccrual := s.moc.clock }))
      ∧ (s.tsu.lastAccrual ≤ s.moc.clock → minutes = 0 → blockNotice left entered .tsu s = starts s)
      ∧ (1 ≤ minutes →
        blockNotice left entered .tsu s = starts (charged.withTsu { charged.tsu with lastAccrual := s.moc.clock }))))
  ∧ (∀ (left entered : Mode) (s : State),
    let evaps (f : Fin 12 → State → State) (u : State) : State := (List.finRange 12).foldl (fun w e => f e w) u
    let stopped := s.withDfc { s.dfc with
      frostDue := none, evaps := s.dfc.evaps.map fun x => { x with deferralDue := none } }
    (entered = .holdover ∨ entered = .retain → blockNotice left entered .dfc s = evaps abandonDefrost stopped)
    ∧ (entered = .standby ∨ entered = .checking → blockNotice left entered .dfc s = stopped)
    ∧ (entered = .run → blockNotice left entered .dfc s = allowancePass
      (evaps startDeferral (s.withDfc { s.dfc with frostDue := some (s.moc.clock + 60) }))))
  ∧ ∀ (s : State) (e : Fin 12), let x := s.evap e
    let waits := (holdWithdrawal x.cfg.room e ((enterPhase e .demanded none s).updEvap e fun y =>
        { y with allowanceHeld := false })).updEvap e fun y => { y with holdConfirmed := false, heatTerminated := false }
    (x.phase = .allotted → abandonDefrost e s = waits)
    ∧ (x.phase = .pumpdown ∨ x.phase = .heat ∨ x.phase = .drip → abandonDefrost e s = placeEvap e .run waits)
    ∧ (x.phase = .refreeze → abandonDefrost e s = placeEvap e .run ((enterPhase e .idle none s).updEvap e fun y =>
        { y with frost := 0, forced := false, demandSince := none }))
    ∧ (x.phase = .idle ∨ x.phase = .demanded ∨ x.phase = .fault → abandonDefrost e s = s)

/-- R190, R191, R169; R187 with R76, R102, R105, R120, R144, R157, R170 and R183, block by block. What SUPPLY follows at a restart
is log entry 17, the order of the blocks log entry 38; open seconds past 32 bits are a free value (log entry 9), the clearing of the
alarms of rooms of kind UNUSED is log entry 15. The MOVE cause follows the finished list in `settle` (R177, O8). What is not due is
no event (log entry 2). -/
def Obligations.SelfCheckAndRestart : Prop :=
  (∀ (order : List Block) (s : State), let m := s.moc
    (m.mode = .checking → m.checksDue = true →
      (∀ n, s.firstFailure = some n → exec (.consistencyChecks order) s =
        .next (settle (enterMode .standby order (setSelfCheck (.configInvalid n) s))))
      ∧ (s.firstFailure = none → exec (.consistencyChecks order) s =
        .next (settle ([Lane.door, .probe, .evap, .term].foldl (fun u l => startRollCall l u)
          (s.withMoc { m with checksDue := false, rollCallDue := some (m.clock + 10) })))))
    ∧ (¬(m.mode = .checking ∧ m.checksDue = true) → exec (.consistencyChecks order) s = .next s)
    ∧ (let ended : Prop := ∀ l, (s.laneRec l).polling = .rollCall ∧ (s.laneRec l).position = none ∧ (s.laneRec l).todo = []
      let lost (l : Lane) : Nat := ((s.configuredStations l).filter fun st => (s.station st).link = .lost).length
      (m.mode = .checking → ended → exec (.rollCallCompletion order) s =
        .next (settle (enterMode .run order (setSelfCheck .passed
          (s.withMoc { m with rollCounts := #v[lost .door, lost .probe, lost .evap, lost .term] })))))
      ∧ (¬(m.mode = .checking ∧ ended) → exec (.rollCallCompletion order) s = .next s))
    ∧ (∀ d, m.rollCallDue = some d → m.mode = .checking →
      (d ≤ m.clock → exec (.rollCallLimitExpiry order) s =
        .next (settle (enterMode .standby order (setSelfCheck .rollCallTimeout s))))
      ∧ (m.clock < d → exec (.rollCallLimitExpiry order) s = .next s))
    ∧ (m.rollCallDue = none ∨ m.mode ≠ .checking → exec (.rollCallLimitExpiry order) s = .next s))
  ∧ (∀ s : State,
    let bound (r : Fin 8) : Nat := ((List.finRange 12).filter fun e => (s.evap e).cfg.configured ∧ (s.evap e).cfg.room = r).length
    let passes : Nat → Prop
      | 1 => ∃ r, s.kind r ≠ .unused
      | 2 => ∀ r, s.firstSlot r ≤ s.pdr.ending.get r
      | 3 => ∀ d, (s.door d).inService = true → s.kind (s.door d).room = .dock
      | 4 => (∀ e, (s.evap e).cfg.configured = true → s.kind (s.evap e).cfg.room ≠ .unused) ∧ ∀ r, bound r ≤ 3
      | 5 => ∀ c, (s.cls c).budget ≠ 0 → (s.kind (s.cls c).preferred = .freezer ∨ s.kind (s.cls c).preferred = .blast)
          ∧ 1 ≤ s.slotCount (s.cls c).preferred
      | _ => 1 ≤ s.dfc.allowance ∧ s.dfc.allowance ≤ 4
    (∀ n, s.firstFailure = some n ↔ 1 ≤ n ∧ n ≤ 6 ∧ ¬passes n ∧ ∀ k, 1 ≤ k → k < n → passes k)
    ∧ (s.firstFailure = none ↔ ∀ k, 1 ≤ k → k ≤ 6 → passes k))
  ∧ ∀ (sf bl : Bool) (order : List Block) (s : State), let stopped : List Phase := [.allotted, .pumpdown, .heat, .drip]
    ∃ u : State,
    exec (.warmRestart sf bl order) s = .next (settle (sampleLines sf bl order u)) ∧ sampleLines false false order u = u
    ∧ u.pdr = s.pdr ∧ u.ctb = s.ctb
    ∧ u.moc = { s.moc with
        mode := .standby, modeSince := s.moc.clock, remembered := none
        selfCheck := if s.moc.selfCheck = .inProgress then .abandoned else s.moc.selfCheck
        supplyFail := false, batteryLow := false, rollCallDue := none, checksDue := false }
    ∧ u.mds.finished = s.mds.finished ∧ u.mds.nextSeq = s.mds.nextSeq ∧ u.mds.retryDue = none
    ∧ (∀ i, u.orderEntry i = { s.orderEntry i with rec? := (s.orderEntry i).rec?.map fun x =>
        if x.state = .granted then { x with state := .queued, terminal := none } else x })
    ∧ (∀ k, let x := s.terminal k
      (x.state = .granted → u.terminal k = { x with state := .offline, bound := none, revokeDue := x.bound })
      ∧ (x.state = .idle ∨ x.state = .carrying → u.terminal k = { x with state := .offline })
      ∧ (x.state = .disabled ∨ x.state = .offline → u.terminal k = x))
    ∧ (∀ d, let x := s.door d
      let leaves : Prop := x.inService = true ∧ x.state ≠ .offline
      (¬leaves → u.door d = x)
      ∧ (leaves → x.state ≠ .opened → u.door d = { x with state := .offline, remembered := some x.state })
      ∧ (leaves → x.state = .opened → u.door d = { x with
          state := .offline, remembered := some .opened, useList := [], openSince := none, openWaitDue := none
          session := x.session.map fun y =>
            { y with openSeconds := addOpenSeconds y.openSeconds (s.moc.clock - x.openSince.getD s.moc.clock) } }))
    ∧ u.dkc.holds = s.dkc.holds ∧ u.dfc.allowance = s.dfc.allowance ∧ u.dfc.frostDue = none
    ∧ (∀ e, let x := s.evap e
      (x.phase ∈ stopped → u.evap e =
        { x with phase := .fault, phaseSince := s.moc.clock, deadline := none, deferralDue := none })
      ∧ (x.phase ∉ stopped → u.evap e = { x with deferralDue := none }))
    ∧ u.tsu.lastAccrual = s.tsu.lastAccrual ∧ u.tsu.accrualDue = none
    ∧ (∀ p, let x := s.probe p
      u.probe p = { x with status := if x.fitted = true then .silent else x.status, counted := false })
    ∧ (∀ r, u.thermal r =
      { s.thermal r with
        known := false, coilExcluded := false, state := .unwatched, warmSince := none, staleSince := none, staleRaised := false
        graceEnd := none, maskEnd := none, staleDue := none })
    ∧ u.alt =
      ((List.finRange 8).filter fun r => s.kind r = .unused).foldl
        (fun a r => (a.clear .roomWarm (.room r)).clear .roomStale (.room r))
        (((List.finRange 24).filter fun d => (s.door d).inService ∧ (s.door d).state = .opened).foldl
          (fun a d => a.clear .doorOpenLong (.door d)) s.alt)
    ∧ (∀ l, (u.laneRec l).polling = .stopped ∧ (u.laneRec l).position = none ∧ (u.laneRec l).todo = [])
    ∧ (∀ st, u.station st =
      { link := if (s.station st).link = .heard then .unconfirmed else (s.station st).link
        missed := 0, seqNo := (s.station st).seqNo, slotSent := false
        slot := match st with
          | .door d => if (s.door d).inService = true then some (.door .stop) else none
          | _ => none })
    ∧ u.lkp.urgent = [] ∧ u.lkp.normal = [] ∧ u.lkp.answers = [] ∧ u.lkp.exchange = none ∧ u.lkp.shifted = []
    ∧ u.lkp.masks = {} ∧ u.lkp.discards = 0 ∧ u.lkp.reasons = { warmRestart := true }
    ∧ u.lkp.doorSet = ((List.finRange 24).filter fun d => (s.door d).inService ∧ (s.door d).state ≠ .offline)
    ∧ u.lkp.defrostSet = ((List.finRange 12).filter fun e => (s.evap e).phase ∈ stopped)
    ∧ u.lkp.roomSet = ((List.finRange 8).filter fun r => (s.thermal r).state ≠ .unwatched)
    ∧ let c := u.lkp.pendingCauses
      c.link = true ∧ c.alarm = false ∧ (c.door = true ↔ u.lkp.doorSet ≠ []) ∧ (c.defrost = true ↔ u.lkp.defrostSet ≠ [])
      ∧ (c.room = true ↔ u.lkp.roomSet ≠ [])
      ∧ (c.supply = true ↔ s.moc.selfCheck = .inProgress ∨ (s.moc.supplyFail = true ∧ sf = false)
        ∨ (s.moc.batteryLow = true ∧ bl = false))

end
end

