-- ==== Sys2Proof/Laws/State.lean ====
section
/-! SUPPORT. Reading a field of the state after the write of one block: one lemma for each field and each write, so that no proof
unfolds a record update. -/

namespace Sys2Proof.Machine

@[simp] theorem withPdr_pdr (s : State) (b : Pdr) : (s.withPdr b).pdr = b := rfl
@[simp] theorem withPdr_ctb (s : State) (b : Pdr) : (s.withPdr b).ctb = s.ctb := rfl
@[simp] theorem withPdr_mds (s : State) (b : Pdr) : (s.withPdr b).mds = s.mds := rfl
@[simp] theorem withPdr_dkc (s : State) (b : Pdr) : (s.withPdr b).dkc = s.dkc := rfl
@[simp] theorem withPdr_tsu (s : State) (b : Pdr) : (s.withPdr b).tsu = s.tsu := rfl
@[simp] theorem withPdr_dfc (s : State) (b : Pdr) : (s.withPdr b).dfc = s.dfc := rfl
@[simp] theorem withPdr_alt (s : State) (b : Pdr) : (s.withPdr b).alt = s.alt := rfl
@[simp] theorem withPdr_lpl (s : State) (b : Pdr) : (s.withPdr b).lpl = s.lpl := rfl
@[simp] theorem withPdr_lkp (s : State) (b : Pdr) : (s.withPdr b).lkp = s.lkp := rfl
@[simp] theorem withPdr_moc (s : State) (b : Pdr) : (s.withPdr b).moc = s.moc := rfl
@[simp] theorem withPdr_timeBase (s : State) (b : Pdr) : (s.withPdr b).timeBase = s.timeBase := rfl
@[simp] theorem withPdr_freeDraws (s : State) (b : Pdr) : (s.withPdr b).freeDraws = s.freeDraws := rfl
@[simp] theorem withPdr_pending (s : State) (b : Pdr) : (s.withPdr b).pending = s.pending := rfl

@[simp] theorem withCtb_pdr (s : State) (b : Ctb) : (s.withCtb b).pdr = s.pdr := rfl
@[simp] theorem withCtb_ctb (s : State) (b : Ctb) : (s.withCtb b).ctb = b := rfl
@[simp] theorem withCtb_mds (s : State) (b : Ctb) : (s.withCtb b).mds = s.mds := rfl
@[simp] theorem withCtb_dkc (s : State) (b : Ctb) : (s.withCtb b).dkc = s.dkc := rfl
@[simp] theorem withCtb_tsu (s : State) (b : Ctb) : (s.withCtb b).tsu = s.tsu := rfl
@[simp] theorem withCtb_dfc (s : State) (b : Ctb) : (s.withCtb b).dfc = s.dfc := rfl
@[simp] theorem withCtb_alt (s : State) (b : Ctb) : (s.withCtb b).alt = s.alt := rfl
@[simp] theorem withCtb_lpl (s : State) (b : Ctb) : (s.withCtb b).lpl = s.lpl := rfl
@[simp] theorem withCtb_lkp (s : State) (b : Ctb) : (s.withCtb b).lkp = s.lkp := rfl
@[simp] theorem withCtb_moc (s : State) (b : Ctb) : (s.withCtb b).moc = s.moc := rfl
@[simp] theorem withCtb_timeBase (s : State) (b : Ctb) : (s.withCtb b).timeBase = s.timeBase := rfl
@[simp] theorem withCtb_freeDraws (s : State) (b : Ctb) : (s.withCtb b).freeDraws = s.freeDraws := rfl
@[simp] theorem withCtb_pending (s : State) (b : Ctb) : (s.withCtb b).pending = s.pending := rfl

@[simp] theorem withMds_pdr (s : State) (b : Mds) : (s.withMds b).pdr = s.pdr := rfl
@[simp] theorem withMds_ctb (s : State) (b : Mds) : (s.withMds b).ctb = s.ctb := rfl
@[simp] theorem withMds_mds (s : State) (b : Mds) : (s.withMds b).mds = b := rfl
@[simp] theorem withMds_dkc (s : State) (b : Mds) : (s.withMds b).dkc = s.dkc := rfl
@[simp] theorem withMds_tsu (s : State) (b : Mds) : (s.withMds b).tsu = s.tsu := rfl
@[simp] theorem withMds_dfc (s : State) (b : Mds) : (s.withMds b).dfc = s.dfc := rfl
@[simp] theorem withMds_alt (s : State) (b : Mds) : (s.withMds b).alt = s.alt := rfl
@[simp] theorem withMds_lpl (s : State) (b : Mds) : (s.withMds b).lpl = s.lpl := rfl
@[simp] theorem withMds_lkp (s : State) (b : Mds) : (s.withMds b).lkp = s.lkp := rfl
@[simp] theorem withMds_moc (s : State) (b : Mds) : (s.withMds b).moc = s.moc := rfl
@[simp] theorem withMds_timeBase (s : State) (b : Mds) : (s.withMds b).timeBase = s.timeBase := rfl
@[simp] theorem withMds_freeDraws (s : State) (b : Mds) : (s.withMds b).freeDraws = s.freeDraws := rfl
@[simp] theorem withMds_pending (s : State) (b : Mds) : (s.withMds b).pending = s.pending := rfl

@[simp] theorem withDkc_pdr (s : State) (b : Dkc) : (s.withDkc b).pdr = s.pdr := rfl
@[simp] theorem withDkc_ctb (s : State) (b : Dkc) : (s.withDkc b).ctb = s.ctb := rfl
@[simp] theorem withDkc_mds (s : State) (b : Dkc) : (s.withDkc b).mds = s.mds := rfl
@[simp] theorem withDkc_dkc (s : State) (b : Dkc) : (s.withDkc b).dkc = b := rfl
@[simp] theorem withDkc_tsu (s : State) (b : Dkc) : (s.withDkc b).tsu = s.tsu := rfl
@[simp] theorem withDkc_dfc (s : State) (b : Dkc) : (s.withDkc b).dfc = s.dfc := rfl
@[simp] theorem withDkc_alt (s : State) (b : Dkc) : (s.withDkc b).alt = s.alt := rfl
@[simp] theorem withDkc_lpl (s : State) (b : Dkc) : (s.withDkc b).lpl = s.lpl := rfl
@[simp] theorem withDkc_lkp (s : State) (b : Dkc) : (s.withDkc b).lkp = s.lkp := rfl
@[simp] theorem withDkc_moc (s : State) (b : Dkc) : (s.withDkc b).moc = s.moc := rfl
@[simp] theorem withDkc_timeBase (s : State) (b : Dkc) : (s.withDkc b).timeBase = s.timeBase := rfl
@[simp] theorem withDkc_freeDraws (s : State) (b : Dkc) : (s.withDkc b).freeDraws = s.freeDraws := rfl
@[simp] theorem withDkc_pending (s : State) (b : Dkc) : (s.withDkc b).pending = s.pending := rfl

@[simp] theorem withTsu_pdr (s : State) (b : Tsu) : (s.withTsu b).pdr = s.pdr := rfl
@[simp] theorem withTsu_ctb (s : State) (b : Tsu) : (s.withTsu b).ctb = s.ctb := rfl
@[simp] theorem withTsu_mds (s : State) (b : Tsu) : (s.withTsu b).mds = s.mds := rfl
@[simp] theorem withTsu_dkc (s : State) (b : Tsu) : (s.withTsu b).dkc = s.dkc := rfl
@[simp] theorem withTsu_tsu (s : State) (b : Tsu) : (s.withTsu b).tsu = b := rfl
@[simp] theorem withTsu_dfc (s : State) (b : Tsu) : (s.withTsu b).dfc = s.dfc := rfl
@[simp] theorem withTsu_alt (s : State) (b : Tsu) : (s.withTsu b).alt = s.alt := rfl
@[simp] theorem withTsu_lpl (s : State) (b : Tsu) : (s.withTsu b).lpl = s.lpl := rfl
@[simp] theorem withTsu_lkp (s : State) (b : Tsu) : (s.withTsu b).lkp = s.lkp := rfl
@[simp] theorem withTsu_moc (s : State) (b : Tsu) : (s.withTsu b).moc = s.moc := rfl
@[simp] theorem withTsu_timeBase (s : State) (b : Tsu) : (s.withTsu b).timeBase = s.timeBase := rfl
@[simp] theorem withTsu_freeDraws (s : State) (b : Tsu) : (s.withTsu b).freeDraws = s.freeDraws := rfl
@[simp] theorem withTsu_pending (s : State) (b : Tsu) : (s.withTsu b).pending = s.pending := rfl

@[simp] theorem withDfc_pdr (s : State) (b : Dfc) : (s.withDfc b).pdr = s.pdr := rfl
@[simp] theorem withDfc_ctb (s : State) (b : Dfc) : (s.withDfc b).ctb = s.ctb := rfl
@[simp] theorem withDfc_mds (s : State) (b : Dfc) : (s.withDfc b).mds = s.mds := rfl
@[simp] theorem withDfc_dkc (s : State) (b : Dfc) : (s.withDfc b).dkc = s.dkc := rfl
@[simp] theorem withDfc_tsu (s : State) (b : Dfc) : (s.withDfc b).tsu = s.tsu := rfl
@[simp] theorem withDfc_dfc (s : State) (b : Dfc) : (s.withDfc b).dfc = b := rfl
@[simp] theorem withDfc_alt (s : State) (b : Dfc) : (s.withDfc b).alt = s.alt := rfl
@[simp] theorem withDfc_lpl (s : State) (b : Dfc) : (s.withDfc b).lpl = s.lpl := rfl
@[simp] theorem withDfc_lkp (s : State) (b : Dfc) : (s.withDfc b).lkp = s.lkp := rfl
@[simp] theorem withDfc_moc (s : State) (b : Dfc) : (s.withDfc b).moc = s.moc := rfl
@[simp] theorem withDfc_timeBase (s : State) (b : Dfc) : (s.withDfc b).timeBase = s.timeBase := rfl
@[simp] theorem withDfc_freeDraws (s : State) (b : Dfc) : (s.withDfc b).freeDraws = s.freeDraws := rfl
@[simp] theorem withDfc_pending (s : State) (b : Dfc) : (s.withDfc b).pending = s.pending := rfl

@[simp] theorem withAlt_pdr (s : State) (b : Alt) : (s.withAlt b).pdr = s.pdr := rfl
@[simp] theorem withAlt_ctb (s : State) (b : Alt) : (s.withAlt b).ctb = s.ctb := rfl
@[simp] theorem withAlt_mds (s : State) (b : Alt) : (s.withAlt b).mds = s.mds := rfl
@[simp] theorem withAlt_dkc (s : State) (b : Alt) : (s.withAlt b).dkc = s.dkc := rfl
@[simp] theorem withAlt_tsu (s : State) (b : Alt) : (s.withAlt b).tsu = s.tsu := rfl
@[simp] theorem withAlt_dfc (s : State) (b : Alt) : (s.withAlt b).dfc = s.dfc := rfl
@[simp] theorem withAlt_alt (s : State) (b : Alt) : (s.withAlt b).alt = b := rfl
@[simp] theorem withAlt_lpl (s : State) (b : Alt) : (s.withAlt b).lpl = s.lpl := rfl
@[simp] theorem withAlt_lkp (s : State) (b : Alt) : (s.withAlt b).lkp = s.lkp := rfl
@[simp] theorem withAlt_moc (s : State) (b : Alt) : (s.withAlt b).moc = s.moc := rfl
@[simp] theorem withAlt_timeBase (s : State) (b : Alt) : (s.withAlt b).timeBase = s.timeBase := rfl
@[simp] theorem withAlt_freeDraws (s : State) (b : Alt) : (s.withAlt b).freeDraws = s.freeDraws := rfl
@[simp] theorem withAlt_pending (s : State) (b : Alt) : (s.withAlt b).pending = s.pending := rfl

@[simp] theorem withLpl_pdr (s : State) (b : Lpl) : (s.withLpl b).pdr = s.pdr := rfl
@[simp] theorem withLpl_ctb (s : State) (b : Lpl) : (s.withLpl b).ctb = s.ctb := rfl
@[simp] theorem withLpl_mds (s : State) (b : Lpl) : (s.withLpl b).mds = s.mds := rfl
@[simp] theorem withLpl_dkc (s : State) (b : Lpl) : (s.withLpl b).dkc = s.dkc := rfl
@[simp] theorem withLpl_tsu (s : State) (b : Lpl) : (s.withLpl b).tsu = s.tsu := rfl
@[simp] theorem withLpl_dfc (s : State) (b : Lpl) : (s.withLpl b).dfc = s.dfc := rfl
@[simp] theorem withLpl_alt (s : State) (b : Lpl) : (s.withLpl b).alt = s.alt := rfl
@[simp] theorem withLpl_lpl (s : State) (b : Lpl) : (s.withLpl b).lpl = b := rfl
@[simp] theorem withLpl_lkp (s : State) (b : Lpl) : (s.withLpl b).lkp = s.lkp := rfl
@[simp] theorem withLpl_moc (s : State) (b : Lpl) : (s.withLpl b).moc = s.moc := rfl
@[simp] theorem withLpl_timeBase (s : State) (b : Lpl) : (s.withLpl b).timeBase = s.timeBase := rfl
@[simp] theorem withLpl_freeDraws (s : State) (b : Lpl) : (s.withLpl b).freeDraws = s.freeDraws := rfl
@[simp] theorem withLpl_pending (s : State) (b : Lpl) : (s.withLpl b).pending = s.pending := rfl

@[simp] theorem withLkp_pdr (s : State) (b : Lkp) : (s.withLkp b).pdr = s.pdr := rfl
@[simp] theorem withLkp_ctb (s : State) (b : Lkp) : (s.withLkp b).ctb = s.ctb := rfl
@[simp] theorem withLkp_mds (s : State) (b : Lkp) : (s.withLkp b).mds = s.mds := rfl
@[simp] theorem withLkp_dkc (s : State) (b : Lkp) : (s.withLkp b).dkc = s.dkc := rfl
@[simp] theorem withLkp_tsu (s : State) (b : Lkp) : (s.withLkp b).tsu = s.tsu := rfl
@[simp] theorem withLkp_dfc (s : State) (b : Lkp) : (s.withLkp b).dfc = s.dfc := rfl
@[simp] theorem withLkp_alt (s : State) (b : Lkp) : (s.withLkp b).alt = s.alt := rfl
@[simp] theorem withLkp_lpl (s : State) (b : Lkp) : (s.withLkp b).lpl = s.lpl := rfl
@[simp] theorem withLkp_lkp (s : State) (b : Lkp) : (s.withLkp b).lkp = b := rfl
@[simp] theorem withLkp_moc (s : State) (b : Lkp) : (s.withLkp b).moc = s.moc := rfl
@[simp] theorem withLkp_timeBase (s : State) (b : Lkp) : (s.withLkp b).timeBase = s.timeBase := rfl
@[simp] theorem withLkp_freeDraws (s : State) (b : Lkp) : (s.withLkp b).freeDraws = s.freeDraws := rfl
@[simp] theorem withLkp_pending (s : State) (b : Lkp) : (s.withLkp b).pending = s.pending := rfl

@[simp] theorem withMoc_pdr (s : State) (b : Moc) : (s.withMoc b).pdr = s.pdr := rfl
@[simp] theorem withMoc_ctb (s : State) (b : Moc) : (s.withMoc b).ctb = s.ctb := rfl
@[simp] theorem withMoc_mds (s : State) (b : Moc) : (s.withMoc b).mds = s.mds := rfl
@[simp] theorem withMoc_dkc (s : State) (b : Moc) : (s.withMoc b).dkc = s.dkc := rfl
@[simp] theorem withMoc_tsu (s : State) (b : Moc) : (s.withMoc b).tsu = s.tsu := rfl
@[simp] theorem withMoc_dfc (s : State) (b : Moc) : (s.withMoc b).dfc = s.dfc := rfl
@[simp] theorem withMoc_alt (s : State) (b : Moc) : (s.withMoc b).alt = s.alt := rfl
@[simp] theorem withMoc_lpl (s : State) (b : Moc) : (s.withMoc b).lpl = s.lpl := rfl
@[simp] theorem withMoc_lkp (s : State) (b : Moc) : (s.withMoc b).lkp = s.lkp := rfl
@[simp] theorem withMoc_moc (s : State) (b : Moc) : (s.withMoc b).moc = b := rfl
@[simp] theorem withMoc_timeBase (s : State) (b : Moc) : (s.withMoc b).timeBase = s.timeBase := rfl
@[simp] theorem withMoc_freeDraws (s : State) (b : Moc) : (s.withMoc b).freeDraws = s.freeDraws := rfl
@[simp] theorem withMoc_pending (s : State) (b : Moc) : (s.withMoc b).pending = s.pending := rfl

@[simp] theorem withTimeBase_pdr (s : State) (b : Nat) : (s.withTimeBase b).pdr = s.pdr := rfl
@[simp] theorem withTimeBase_ctb (s : State) (b : Nat) : (s.withTimeBase b).ctb = s.ctb := rfl
@[simp] theorem withTimeBase_mds (s : State) (b : Nat) : (s.withTimeBase b).mds = s.mds := rfl
@[simp] theorem withTimeBase_dkc (s : State) (b : Nat) : (s.withTimeBase b).dkc = s.dkc := rfl
@[simp] theorem withTimeBase_tsu (s : State) (b : Nat) : (s.withTimeBase b).tsu = s.tsu := rfl
@[simp] theorem withTimeBase_dfc (s : State) (b : Nat) : (s.withTimeBase b).dfc = s.dfc := rfl
@[simp] theorem withTimeBase_alt (s : State) (b : Nat) : (s.withTimeBase b).alt = s.alt := rfl
@[simp] theorem withTimeBase_lpl (s : State) (b : Nat) : (s.withTimeBase b).lpl = s.lpl := rfl
@[simp] theorem withTimeBase_lkp (s : State) (b : Nat) : (s.withTimeBase b).lkp = s.lkp := rfl
@[simp] theorem withTimeBase_moc (s : State) (b : Nat) : (s.withTimeBase b).moc = s.moc := rfl
@[simp] theorem withTimeBase_timeBase (s : State) (b : Nat) : (s.withTimeBase b).timeBase = b := rfl
@[simp] theorem withTimeBase_freeDraws (s : State) (b : Nat) : (s.withTimeBase b).freeDraws = s.freeDraws := rfl
@[simp] theorem withTimeBase_pending (s : State) (b : Nat) : (s.withTimeBase b).pending = s.pending := rfl

@[simp] theorem withFreeDraws_pdr (s : State) (b : Nat) : (s.withFreeDraws b).pdr = s.pdr := rfl
@[simp] theorem withFreeDraws_ctb (s : State) (b : Nat) : (s.withFreeDraws b).ctb = s.ctb := rfl
@[simp] theorem withFreeDraws_mds (s : State) (b : Nat) : (s.withFreeDraws b).mds = s.mds := rfl
@[simp] theorem withFreeDraws_dkc (s : State) (b : Nat) : (s.withFreeDraws b).dkc = s.dkc := rfl
@[simp] theorem withFreeDraws_tsu (s : State) (b : Nat) : (s.withFreeDraws b).tsu = s.tsu := rfl
@[simp] theorem withFreeDraws_dfc (s : State) (b : Nat) : (s.withFreeDraws b).dfc = s.dfc := rfl
@[simp] theorem withFreeDraws_alt (s : State) (b : Nat) : (s.withFreeDraws b).alt = s.alt := rfl
@[simp] theorem withFreeDraws_lpl (s : State) (b : Nat) : (s.withFreeDraws b).lpl = s.lpl := rfl
@[simp] theorem withFreeDraws_lkp (s : State) (b : Nat) : (s.withFreeDraws b).lkp = s.lkp := rfl
@[simp] theorem withFreeDraws_moc (s : State) (b : Nat) : (s.withFreeDraws b).moc = s.moc := rfl
@[simp] theorem withFreeDraws_timeBase (s : State) (b : Nat) : (s.withFreeDraws b).timeBase = s.timeBase := rfl
@[simp] theorem withFreeDraws_freeDraws (s : State) (b : Nat) : (s.withFreeDraws b).freeDraws = b := rfl
@[simp] theorem withFreeDraws_pending (s : State) (b : Nat) : (s.withFreeDraws b).pending = s.pending := rfl

@[simp] theorem withPending_pdr (s : State) (b : List Instr) : (s.withPending b).pdr = s.pdr := rfl
@[simp] theorem withPending_ctb (s : State) (b : List Instr) : (s.withPending b).ctb = s.ctb := rfl
@[simp] theorem withPending_mds (s : State) (b : List Instr) : (s.withPending b).mds = s.mds := rfl
@[simp] theorem withPending_dkc (s : State) (b : List Instr) : (s.withPending b).dkc = s.dkc := rfl
@[simp] theorem withPending_tsu (s : State) (b : List Instr) : (s.withPending b).tsu = s.tsu := rfl
@[simp] theorem withPending_dfc (s : State) (b : List Instr) : (s.withPending b).dfc = s.dfc := rfl
@[simp] theorem withPending_alt (s : State) (b : List Instr) : (s.withPending b).alt = s.alt := rfl
@[simp] theorem withPending_lpl (s : State) (b : List Instr) : (s.withPending b).lpl = s.lpl := rfl
@[simp] theorem withPending_lkp (s : State) (b : List Instr) : (s.withPending b).lkp = s.lkp := rfl
@[simp] theorem withPending_moc (s : State) (b : List Instr) : (s.withPending b).moc = s.moc := rfl
@[simp] theorem withPending_timeBase (s : State) (b : List Instr) : (s.withPending b).timeBase = s.timeBase := rfl
@[simp] theorem withPending_freeDraws (s : State) (b : List Instr) : (s.withPending b).freeDraws = s.freeDraws := rfl
@[simp] theorem withPending_pending (s : State) (b : List Instr) : (s.withPending b).pending = b := rfl

/-! Writes of one block: the last one stands, and writing back what is there changes nothing. -/

@[simp] theorem withPdr_withPdr (s : State) (a b : Pdr) : (s.withPdr a).withPdr b = s.withPdr b := rfl
@[simp] theorem withPdr_self (s : State) : s.withPdr s.pdr = s := rfl
@[simp] theorem withCtb_withCtb (s : State) (a b : Ctb) : (s.withCtb a).withCtb b = s.withCtb b := rfl
@[simp] theorem withCtb_self (s : State) : s.withCtb s.ctb = s := rfl
@[simp] theorem withMds_withMds (s : State) (a b : Mds) : (s.withMds a).withMds b = s.withMds b := rfl
@[simp] theorem withMds_self (s : State) : s.withMds s.mds = s := rfl
@[simp] theorem withDkc_withDkc (s : State) (a b : Dkc) : (s.withDkc a).withDkc b = s.withDkc b := rfl
@[simp] theorem withDkc_self (s : State) : s.withDkc s.dkc = s := rfl
@[simp] theorem withTsu_withTsu (s : State) (a b : Tsu) : (s.withTsu a).withTsu b = s.withTsu b := rfl
@[simp] theorem withTsu_self (s : State) : s.withTsu s.tsu = s := rfl
@[simp] theorem withDfc_withDfc (s : State) (a b : Dfc) : (s.withDfc a).withDfc b = s.withDfc b := rfl
@[simp] theorem withDfc_self (s : State) : s.withDfc s.dfc = s := rfl
@[simp] theorem withAlt_withAlt (s : State) (a b : Alt) : (s.withAlt a).withAlt b = s.withAlt b := rfl
@[simp] theorem withAlt_self (s : State) : s.withAlt s.alt = s := rfl
@[simp] theorem withLpl_withLpl (s : State) (a b : Lpl) : (s.withLpl a).withLpl b = s.withLpl b := rfl
@[simp] theorem withLpl_self (s : State) : s.withLpl s.lpl = s := rfl
@[simp] theorem withLkp_withLkp (s : State) (a b : Lkp) : (s.withLkp a).withLkp b = s.withLkp b := rfl
@[simp] theorem withLkp_self (s : State) : s.withLkp s.lkp = s := rfl
@[simp] theorem withMoc_withMoc (s : State) (a b : Moc) : (s.withMoc a).withMoc b = s.withMoc b := rfl
@[simp] theorem withMoc_self (s : State) : s.withMoc s.moc = s := rfl
@[simp] theorem withTimeBase_withTimeBase (s : State) (a b : Nat) : (s.withTimeBase a).withTimeBase b = s.withTimeBase b := rfl
@[simp] theorem withTimeBase_self (s : State) : s.withTimeBase s.timeBase = s := rfl
@[simp] theorem withFreeDraws_withFreeDraws (s : State) (a b : Nat) : (s.withFreeDraws a).withFreeDraws b = s.withFreeDraws b := rfl
@[simp] theorem withFreeDraws_self (s : State) : s.withFreeDraws s.freeDraws = s := rfl
@[simp] theorem withPending_withPending (s : State) (a b : List Instr) : (s.withPending a).withPending b = s.withPending b := rfl
@[simp] theorem withPending_self (s : State) : s.withPending s.pending = s := rfl

/-! Two states with equal fields are equal. -/

theorem State.ext_fields {s t : State} (h0 : s.pdr = t.pdr) (h1 : s.ctb = t.ctb) (h2 : s.mds = t.mds) (h3 : s.dkc = t.dkc) (h4 : s.tsu = t.tsu) (h5 : s.dfc = t.dfc) (h6 : s.alt = t.alt) (h7 : s.lpl = t.lpl) (h8 : s.lkp = t.lkp) (h9 : s.moc = t.moc) (h10 : s.timeBase = t.timeBase) (h11 : s.freeDraws = t.freeDraws) (h12 : s.pending = t.pending) :
    s = t := by
  cases s; cases t; simp_all

end Sys2Proof.Machine
end

