-- ==== Sys2Proof/Laws/Tables.lean ====
section
/-! SUPPORT. What the table operations of Machine/Ops.lean do: numbered tables, sparse tables and their canonical form, the first
number that fits, and ordered lists. -/

namespace Sys2Proof.Machine

/-! ## Numbered tables -/

theorem upd_get {α : Type} {n : Nat} (v : Vector α n) (i j : Fin n) (f : α → α) :
    (upd v i f).get j = if j = i then f (v.get i) else v.get j := by
  unfold upd
  by_cases h : j = i
  · subst h
    rw [if_pos rfl]
    exact Vector.getElem_set_self (xs := v) (x := f (v.get j)) j.2
  · have : i.1 ≠ j.1 := fun e => h (Fin.ext e.symm)
    rw [if_neg h]
    show (v.set i.1 _ i.2)[j.1] = v[j.1]
    exact Vector.getElem_set_ne i.2 j.2 this

@[simp] theorem upd_get_same {α : Type} {n : Nat} (v : Vector α n) (i : Fin n) (f : α → α) :
    (upd v i f).get i = f (v.get i) := by simp [upd_get]

theorem upd_get_other {α : Type} {n : Nat} (v : Vector α n) {i j : Fin n} (f : α → α) (h : j ≠ i) :
    (upd v i f).get j = v.get j := by simp [upd_get, h]

/-- Two writes of one place are one. -/
theorem upd_upd {α : Type} {n : Nat} (v : Vector α n) (i : Fin n) (f g : α → α) : upd (upd v i f) i g = upd v i (g ∘ f) := by
  apply Vector.ext
  intro j hj
  have h (w : Vector α n) : w[j] = w.get ⟨j, hj⟩ := rfl
  rw [h, h, upd_get, upd_get, upd_get, upd_get, if_pos rfl]
  split <;> rfl
/-- A write sees the value that stands there. -/
theorem upd_congr {α : Type} {n : Nat} (v : Vector α n) (i : Fin n) (f g : α → α) (h : f (v.get i) = g (v.get i)) :
    upd v i f = upd v i g := by
  unfold upd; congr 1

/-! ## Sparse tables -/

theorem swfFrom_le {α : Type} [DecidableEq α] {d : α} {lo lo' : Nat} {m : List (Nat × α)} (h : swfFrom d lo m = true)
    (hl : lo' ≤ lo) : swfFrom d lo' m = true := by
  cases m with
  | nil => rfl
  | cons x m =>
    obtain ⟨j, v⟩ := x
    simp only [swfFrom, Bool.and_eq_true, decide_eq_true_eq] at h ⊢
    exact ⟨⟨by omega, h.1.2⟩, h.2⟩

theorem sget_below {α : Type} [DecidableEq α] {d : α} {lo k : Nat} {m : List (Nat × α)} (h : swfFrom d lo m = true)
    (hk : k < lo) : sget d m k = d := by
  induction m generalizing lo with
  | nil => rfl
  | cons x m ih =>
    obtain ⟨j, v⟩ := x
    simp only [swfFrom, Bool.and_eq_true, decide_eq_true_eq] at h
    have : j ≠ k := by omega
    simp only [sget, this, if_false]
    exact ih h.2 (by omega)

theorem swfFrom_sset {α : Type} [DecidableEq α] {d : α} {lo k : Nat} {v : α} {m : List (Nat × α)}
    (h : swfFrom d lo m = true) (hk : lo ≤ k) : swfFrom d lo (sset d k v m) = true := by
  induction m generalizing lo with
  | nil =>
    unfold sset
    split
    · rfl
    · rename_i hv; simp [swfFrom, hv, hk]
  | cons x m ih =>
    obtain ⟨j, w⟩ := x
    simp only [swfFrom, Bool.and_eq_true, decide_eq_true_eq] at h
    obtain ⟨⟨h1, h2⟩, h3⟩ := h
    unfold sset
    split
    · split
      · simp [swfFrom, h1, h2, h3]
      · rename_i hkj hv
        simp only [swfFrom, Bool.and_eq_true, decide_eq_true_eq]
        exact ⟨⟨hk, hv⟩, ⟨by omega, h2⟩, h3⟩
    · split
      · rename_i hkj
        subst hkj
        split
        · exact swfFrom_le h3 (by omega)
        · rename_i hv; simp [swfFrom, hv, hk, h3]
      · simp only [swfFrom, Bool.and_eq_true, decide_eq_true_eq]
        exact ⟨⟨h1, h2⟩, ih h3 (by omega)⟩

/-- A write keeps the canonical form. -/
theorem swf_sset {α : Type} [DecidableEq α] {d : α} {k : Nat} {v : α} {m : List (Nat × α)} (h : swf d m = true) :
    swf d (sset d k v m) = true := swfFrom_sset h (Nat.zero_le k)

theorem swfFrom_filter {α : Type} [DecidableEq α] {d : α} {lo : Nat} (p : Nat × α → Bool) {m : List (Nat × α)}
    (h : swfFrom d lo m = true) : swfFrom d lo (m.filter p) = true := by
  induction m generalizing lo with
  | nil => rfl
  | cons x m ih =>
    obtain ⟨j, v⟩ := x
    simp only [swfFrom, Bool.and_eq_true, decide_eq_true_eq] at h
    rw [List.filter_cons]
    split
    · simp only [swfFrom, Bool.and_eq_true, decide_eq_true_eq]
      exact ⟨h.1, ih h.2⟩
    · exact swfFrom_le (ih h.2) (by omega)

/-- Leaving out entries keeps the canonical form. -/
theorem swf_filter {α : Type} [DecidableEq α] {d : α} (p : Nat × α → Bool) {m : List (Nat × α)} (h : swf d m = true) :
    swf d (m.filter p) = true := swfFrom_filter p h

theorem sget_sset_from {α : Type} [DecidableEq α] {d : α} {lo k j : Nat} {v : α} {m : List (Nat × α)}
    (h : swfFrom d lo m = true) : sget d (sset d k v m) j = if j = k then v else sget d m j := by
  induction m generalizing lo with
  | nil =>
    unfold sset
    split
    · rename_i hv; subst hv; simp [sget]
    · by_cases hj : k = j
      · subst hj; simp [sget]
      · simp [sget, hj, Ne.symm hj]
  | cons x m ih =>
    obtain ⟨i, w⟩ := x
    simp only [swfFrom, Bool.and_eq_true, decide_eq_true_eq] at h
    obtain ⟨⟨h1, h2⟩, h3⟩ := h
    have ih := ih h3
    unfold sset
    split
    · rename_i hki
      split
      · rename_i hv
        subst hv
        by_cases hj : j = k
        · subst hj
          have : i ≠ j := by omega
          rw [if_pos rfl]
          simp only [sget, this, if_false]
          exact sget_below h3 (by omega)
        · rw [if_neg hj]
      · by_cases hj : j = k
        · subst hj; simp [sget]
        · simp [sget, Ne.symm hj, hj]
    · split
      · rename_i hki
        subst hki
        split
        · rename_i hv
          subst hv
          by_cases hj : j = k
          · subst hj; rw [if_pos rfl]; exact sget_below h3 (by omega)
          · simp [sget, Ne.symm hj, hj]
        · by_cases hj : j = k
          · subst hj; simp [sget]
          · simp [sget, Ne.symm hj, hj]
      · by_cases hj : i = j
        · subst hj
          have : ¬ i = k := by omega
          simp [sget, this]
        · simp only [sget, hj, if_false]; exact ih

/-- Reading after a write. -/
theorem sget_sset {α : Type} [DecidableEq α] {d : α} {k j : Nat} {v : α} {m : List (Nat × α)} (h : swf d m = true) :
    sget d (sset d k v m) j = if j = k then v else sget d m j := sget_sset_from h

/-- Reading the key just written. -/
theorem sget_sset_same {α : Type} [DecidableEq α] {d : α} {k : Nat} {v : α} {m : List (Nat × α)} (h : swf d m = true) :
    sget d (sset d k v m) k = v := by rw [sget_sset h, if_pos rfl]

/-- Reading another key. -/
theorem sget_sset_other {α : Type} [DecidableEq α] {d : α} {k j : Nat} {v : α} {m : List (Nat × α)} (h : swf d m = true)
    (hj : j ≠ k) : sget d (sset d k v m) j = sget d m j := by rw [sget_sset h, if_neg hj]

theorem swfFrom_ext {α : Type} [DecidableEq α] {d : α} {lo : Nat} {m n : List (Nat × α)} (hm : swfFrom d lo m = true)
    (hn : swfFrom d lo n = true) (h : ∀ k, sget d m k = sget d n k) : m = n := by
  induction m generalizing lo n with
  | nil =>
    cases n with
    | nil => rfl
    | cons y n =>
      obtain ⟨j, w⟩ := y
      simp only [swfFrom, Bool.and_eq_true, decide_eq_true_eq] at hn
      have := h j
      simp [sget] at this
      exact absurd this.symm hn.1.2
  | cons x m ih =>
    obtain ⟨i, v⟩ := x
    simp only [swfFrom, Bool.and_eq_true, decide_eq_true_eq] at hm
    cases n with
    | nil =>
      have := h i
      simp [sget] at this
      exact absurd this hm.1.2
    | cons y n =>
      obtain ⟨j, w⟩ := y
      simp only [swfFrom, Bool.and_eq_true, decide_eq_true_eq] at hn
      have hij : i = j := by
        rcases Nat.lt_trichotomy i j with hlt | heq | hgt
        · have := h i
          have hne : j ≠ i := by omega
          simp only [sget, if_true, hne, if_false] at this
          rw [sget_below hn.2 (by omega)] at this
          exact absurd this hm.1.2
        · exact heq
        · have := h j
          have hne : i ≠ j := by omega
          simp only [sget, if_true, hne, if_false] at this
          rw [sget_below hm.2 (by omega)] at this
          exact absurd this.symm hn.1.2
      subst hij
      have hvw : v = w := by have := h i; simpa [sget] using this
      subst hvw
      congr 1
      refine ih hm.2 hn.2 fun k => ?_
      by_cases hk : i = k
      · subst hk; rw [sget_below hm.2 (by omega), sget_below hn.2 (by omega)]
      · have := h k; simpa [sget, hk] using this

/-- Two canonical tables that read the same are the same. -/
theorem swf_ext {α : Type} [DecidableEq α] {d : α} {m n : List (Nat × α)} (hm : swf d m = true) (hn : swf d n = true)
    (h : ∀ k, sget d m k = sget d n k) : m = n := swfFrom_ext hm hn h

/-! ## The first number that fits -/

theorem findUp_some {p : Nat → Bool} {fuel start n : Nat} :
    findUp p fuel start = some n ↔
      start ≤ n ∧ n < start + fuel ∧ p n = true ∧ ∀ m, start ≤ m → m < n → p m = false := by
  induction fuel generalizing start with
  | zero => simp only [findUp]; constructor <;> intro h <;> first | contradiction | omega
  | succ fuel ih =>
    unfold findUp
    by_cases hp : p start = true
    · simp only [hp, if_true, Option.some.injEq]
      constructor
      · rintro rfl; exact ⟨Nat.le_refl _, by omega, hp, fun m h1 h2 => by omega⟩
      · rintro ⟨h1, h2, h3, h4⟩
        by_contra hne
        have := h4 start (Nat.le_refl _) (by omega)
        rw [hp] at this; contradiction
    · simp only [hp]
      rw [if_neg (by decide), ih]
      constructor
      · rintro ⟨h1, h2, h3, h4⟩
        refine ⟨by omega, by omega, h3, fun m hm hmn => ?_⟩
        by_cases he : m = start
        · subst he; simpa using hp
        · exact h4 m (by omega) hmn
      · rintro ⟨h1, h2, h3, h4⟩
        have : start ≠ n := by rintro rfl; exact hp h3
        exact ⟨by omega, by omega, h3, fun m hm hmn => h4 m (by omega) hmn⟩

theorem findUp_none {p : Nat → Bool} {fuel start : Nat} :
    findUp p fuel start = none ↔ ∀ m, start ≤ m → m < start + fuel → p m = false := by
  induction fuel generalizing start with
  | zero => simp only [findUp, true_iff]; intro m h1 h2; omega
  | succ fuel ih =>
    unfold findUp
    by_cases hp : p start = true
    · simp only [hp, if_true]
      constructor
      · intro h; contradiction
      · intro h; have := h start (Nat.le_refl _) (by omega); rw [hp] at this; contradiction
    · simp only [hp]
      rw [if_neg (by decide), ih]
      constructor
      · intro h m h1 h2
        by_cases he : m = start
        · subst he; simpa using hp
        · exact h m (by omega) (by omega)
      · intro h m h1 h2; exact h m (by omega) (by omega)

/-! ## Ordered lists -/

theorem mem_insertBy {α : Type} (before : α → α → Bool) (x y : α) (l : List α) :
    y ∈ insertBy before x l ↔ y = x ∨ y ∈ l := by
  induction l with
  | nil => simp [insertBy]
  | cons z l ih =>
    unfold insertBy
    split
    · simp
    · simp only [List.mem_cons, ih]; tauto

theorem length_insertBy {α : Type} (before : α → α → Bool) (x : α) (l : List α) :
    (insertBy before x l).length = l.length + 1 := by
  induction l with
  | nil => rfl
  | cons z l ih => unfold insertBy; split <;> simp [ih]

theorem mem_sortBy {α : Type} (before : α → α → Bool) (y : α) (l : List α) : y ∈ sortBy before l ↔ y ∈ l := by
  induction l with
  | nil => simp [sortBy]
  | cons x l ih => simp [sortBy, mem_insertBy, ih]

theorem length_sortBy {α : Type} (before : α → α → Bool) (l : List α) : (sortBy before l).length = l.length := by
  induction l with
  | nil => rfl
  | cons x l ih => simp [sortBy, length_insertBy, ih]

theorem mem_insertFin {n : Nat} (i j : Fin n) (l : List (Fin n)) : j ∈ insertFin i l ↔ j = i ∨ j ∈ l := by
  induction l with
  | nil => simp [insertFin]
  | cons k l ih =>
    unfold insertFin
    split
    · simp
    · split
      · rename_i h; subst h; simp
      · simp only [List.mem_cons, ih]; tauto

theorem mem_insertHandle (h j : Handle) (l : List Handle) : j ∈ insertHandle h l ↔ j = h ∨ j ∈ l := by
  induction l with
  | nil => simp [insertHandle]
  | cons k l ih =>
    unfold insertHandle
    split
    · simp
    · split
      · rename_i h; subst h; simp
      · simp only [List.mem_cons, ih]; tauto

/-! ## Accessors after a write -/

theorem door_updDoor (s : State) (d e : Fin 24) (f : Door → Door) :
    (s.updDoor d f).door e = if e = d then f (s.door d) else s.door e := upd_get _ _ _ _
theorem hold_updHold (s : State) (r q : Fin 8) (f : RoomHold → RoomHold) :
    (s.updHold r f).hold q = if q = r then f (s.hold r) else s.hold q := upd_get _ _ _ _
theorem evap_updEvap (s : State) (e g : Fin 12) (f : Evap → Evap) :
    (s.updEvap e f).evap g = if g = e then f (s.evap e) else s.evap g := upd_get _ _ _ _
theorem probe_updProbe (s : State) (p q : Fin 32) (f : Probe → Probe) :
    (s.updProbe p f).probe q = if q = p then f (s.probe p) else s.probe q := upd_get _ _ _ _
theorem thermal_updThermal (s : State) (r q : Fin 8) (f : RoomThermal → RoomThermal) :
    (s.updThermal r f).thermal q = if q = r then f (s.thermal r) else s.thermal q := upd_get _ _ _ _
/-- Different stations have different records. -/
theorem slotOf_inj {a b : StationId} (h : a.slotOf = b.slotOf) : a = b := by
  cases a <;> cases b <;> simp only [StationId.slotOf, Fin.mk.injEq] at h <;> first
    | omega
    | (congr 1; omega)
theorem station_updStation (s : State) (st u : StationId) (f : Station → Station) :
    (s.updStation st f).station u = if u = st then f (s.station st) else s.station u := by
  show (upd s.lpl.stations st.slotOf f).get u.slotOf = _
  by_cases h : u = st
  · subst h; simp [State.station]
  · rw [if_neg h, upd_get_other _ _ fun e => h (slotOf_inj e)]; rfl
theorem terminal_updTerminal (s : State) (t u : Fin 16) (f : Terminal → Terminal) :
    (s.updTerminal t f).terminal u = if u = t then f (s.terminal t) else s.terminal u := upd_get _ _ _ _
theorem stagingLane_updStagingLane (s : State) (d e : Fin 24) (f : StagingLane → StagingLane) :
    (s.updStagingLane d f).stagingLane e = if e = d then f (s.stagingLane d) else s.stagingLane e := upd_get _ _ _ _
theorem floor_updFloor (s : State) (r q : Fin 8) (f : List Handle → List Handle) :
    (s.updFloor r f).floor q = if q = r then f (s.floor r) else s.floor q := upd_get _ _ _ _
theorem doorPallets_updDoorPallets (s : State) (d e : Fin 24) (f : List Handle → List Handle) :
    (s.updDoorPallets d f).doorPallets e = if e = d then f (s.doorPallets d) else s.doorPallets e := upd_get _ _ _ _
theorem slot_setSlot (s : State) (n k : Nat) (v : SlotState) (h : swf .free s.pdr.slots = true) :
    (s.setSlot n v).slot k = if k = n then v else s.slot k := sget_sset h
theorem entry_setEntry (s : State) (i k : Nat) (e : PalletEntry) (h : swf {} s.ctb.entries = true) :
    (s.setEntry i e).entry k = if k = i then e else s.entry k := sget_sset h
theorem orderEntry_setOrderEntry (s : State) (i k : Nat) (e : OrderEntry) (h : swf {} s.mds.entries = true) :
    (s.setOrderEntry i e).orderEntry k = if k = i then e else s.orderEntry k := sget_sset h

theorem updThermal_updThermal (s : State) (r : Fin 8) (f g : RoomThermal → RoomThermal) :
    (s.updThermal r f).updThermal r g = s.updThermal r (g ∘ f) := by
  have h : upd (upd s.tsu.rooms r f) r g = upd s.tsu.rooms r (g ∘ f) := upd_upd s.tsu.rooms r f g
  unfold State.updThermal
  simp only [withTsu_tsu, withTsu_withTsu, h]
theorem updEvap_updEvap (s : State) (e : Fin 12) (f g : Evap → Evap) : (s.updEvap e f).updEvap e g = s.updEvap e (g ∘ f) := by
  have h : upd (upd s.dfc.evaps e f) e g = upd s.dfc.evaps e (g ∘ f) := upd_upd s.dfc.evaps e f g
  unfold State.updEvap
  simp only [withDfc_dfc, withDfc_withDfc, h]
theorem updEvap_congr (s : State) (e : Fin 12) (f g : Evap → Evap) (h : f (s.evap e) = g (s.evap e)) :
    s.updEvap e f = s.updEvap e g := by
  have k : upd s.dfc.evaps e f = upd s.dfc.evaps e g := upd_congr s.dfc.evaps e f g h
  unfold State.updEvap; rw [k]

/-! ## Loops -/

/-- A relation that is reflexive and transitive and that every turn of a loop respects holds over the loop. -/
theorem forEach_rel {α : Type} (R : State → State → Prop) (refl : ∀ s, R s s) (trans : ∀ a b c, R a b → R b c → R a c)
    (f : α → State → State) (h : ∀ x s, R s (f x s)) (xs : List α) (s : State) : R s (s.forEach xs f) := by
  induction xs generalizing s with
  | nil => exact refl s
  | cons x xs ih => exact trans _ _ _ (h x s) (ih (f x s))

/-- A property that every turn of a loop keeps, the loop keeps. -/
theorem forEach_keeps {α : Type} (P : State → Prop) (f : α → State → State) (h : ∀ x s, P s → P (f x s)) (xs : List α)
    (s : State) (hs : P s) : P (s.forEach xs f) := by
  induction xs generalizing s with
  | nil => exact hs
  | cons x xs ih => exact ih (f x s) (h x s hs)

@[simp] theorem forEach_nil {α : Type} (s : State) (f : α → State → State) : s.forEach [] f = s := rfl

@[simp] theorem forEach_cons {α : Type} (s : State) (x : α) (xs : List α) (f : α → State → State) :
    s.forEach (x :: xs) f = (f x s).forEach xs f := rfl

end Sys2Proof.Machine
end

