-- ==== Sys2Proof/Laws/Fixed.lean ====
section
/-! SUPPORT. What the operations of the blocks leave alone: the link's queues, masks, reasons, exchange and bytes shifted out, MOC's
record, the time base, the queue of commands, the room kinds and endings, and the class records. One lemma for each operation, so that
a proof about one of these fields never unfolds an operation. -/

namespace Sys2Proof.Machine

/-- The part of the state that no operation of PDR's claims, CTB's claims, MDS, DKC, TSU, DFC, ALT and LPL writes. -/
structure Fixed where
  urgent : List RequestFrame
  normal : List RequestFrame
  answers : List AnswerFrame
  masks : CauseFlags
  reasons : LinkReasons
  discards : Nat
  exchange : Option Exchange
  shifted : List Byte
  moc : Moc
  timeBase : Nat
  pending : List Instr
  kind : Vector RoomKind 8
  ending : Vector Nat 8
  classes : Vector ClassRec 16
deriving DecidableEq

/-- The fixed part of a state. -/
def State.fixed (s : State) : Fixed :=
  { urgent := s.lkp.urgent, normal := s.lkp.normal, answers := s.lkp.answers, masks := s.lkp.masks, reasons := s.lkp.reasons,
    discards := s.lkp.discards, exchange := s.lkp.exchange, shifted := s.lkp.shifted, moc := s.moc, timeBase := s.timeBase,
    pending := s.pending, kind := s.pdr.kind, ending := s.pdr.ending, classes := s.ctb.classes }

theorem fixed_forEach {α : Type} (f : α → State → State) (h : ∀ x s, (f x s).fixed = s.fixed) (xs : List α) (s : State) :
    (s.forEach xs f).fixed = s.fixed :=
  forEach_keeps (fun t => t.fixed = s.fixed) f (fun x t ht => (h x t).trans ht) xs s rfl

theorem fixed_ite {c : Prop} [Decidable c] {a b : State} : (if c then a else b).fixed = if c then a.fixed else b.fixed := by
  split <;> rfl

@[simp] theorem fixed_withMds (s : State) (b : Mds) : (State.withMds s b).fixed = s.fixed := rfl

@[simp] theorem fixed_withDkc (s : State) (b : Dkc) : (State.withDkc s b).fixed = s.fixed := rfl

@[simp] theorem fixed_withTsu (s : State) (b : Tsu) : (State.withTsu s b).fixed = s.fixed := rfl

@[simp] theorem fixed_withDfc (s : State) (b : Dfc) : (State.withDfc s b).fixed = s.fixed := rfl

@[simp] theorem fixed_withAlt (s : State) (b : Alt) : (State.withAlt s b).fixed = s.fixed := rfl

@[simp] theorem fixed_withLpl (s : State) (b : Lpl) : (State.withLpl s b).fixed = s.fixed := rfl

@[simp] theorem fixed_withFreeDraws (s : State) (n : Nat) : (State.withFreeDraws s n).fixed = s.fixed := rfl

@[simp] theorem fixed_setSlot (s : State) (n : Nat) (v : SlotState) : (State.setSlot s n v).fixed = s.fixed := rfl

@[simp] theorem fixed_updStagingLane (s : State) (d : Fin 24) (f : StagingLane → StagingLane) :
    (State.updStagingLane s d f).fixed = s.fixed := rfl

@[simp] theorem fixed_updFloor (s : State) (r : Fin 8) (f : List Handle → List Handle) : (State.updFloor s r f).fixed = s.fixed := rfl

@[simp] theorem fixed_updDoorPallets (s : State) (d : Fin 24) (f : List Handle → List Handle) :
    (State.updDoorPallets s d f).fixed = s.fixed := rfl

@[simp] theorem fixed_setEntry (s : State) (i : Nat) (e : PalletEntry) : (State.setEntry s i e).fixed = s.fixed := rfl

@[simp] theorem fixed_setOrderEntry (s : State) (i : Nat) (e : OrderEntry) : (State.setOrderEntry s i e).fixed = s.fixed := rfl

@[simp] theorem fixed_updTerminal (s : State) (t : Fin 16) (f : Terminal → Terminal) : (State.updTerminal s t f).fixed = s.fixed := rfl

@[simp] theorem fixed_updDoor (s : State) (d : Fin 24) (f : Door → Door) : (State.updDoor s d f).fixed = s.fixed := rfl

@[simp] theorem fixed_updHold (s : State) (r : Fin 8) (f : RoomHold → RoomHold) : (State.updHold s r f).fixed = s.fixed := rfl

@[simp] theorem fixed_updProbe (s : State) (p : Fin 32) (f : Probe → Probe) : (State.updProbe s p f).fixed = s.fixed := rfl

@[simp] theorem fixed_updThermal (s : State) (r : Fin 8) (f : RoomThermal → RoomThermal) :
    (State.updThermal s r f).fixed = s.fixed := rfl

@[simp] theorem fixed_updEvap (s : State) (e : Fin 12) (f : Evap → Evap) : (State.updEvap s e f).fixed = s.fixed := rfl

@[simp] theorem fixed_updLane (s : State) (l : Lane) (f : LaneRec → LaneRec) : (State.updLane s l f).fixed = s.fixed := rfl

@[simp] theorem fixed_updStation (s : State) (st : StationId) (f : Station → Station) :
    (State.updStation s st f).fixed = s.fixed := rfl

@[simp] theorem fixed_setDoorCause (d : Fin 24) (s : State) : (setDoorCause d s).fixed = s.fixed := rfl

@[simp] theorem fixed_setDefrostCause (e : Fin 12) (s : State) : (setDefrostCause e s).fixed = s.fixed := rfl

@[simp] theorem fixed_setRoomCause (r : Fin 8) (s : State) : (setRoomCause r s).fixed = s.fixed := rfl

@[simp] theorem fixed_syncMove (s : State) : (syncMove s).fixed = s.fixed := rfl

@[simp] theorem fixed_raiseAlarm (k : AlarmKind) (sub : Subject) (v : Option AlarmValue) (s : State) :
    (raiseAlarm k sub v s).fixed = s.fixed := rfl

@[simp] theorem fixed_clearAlarm (k : AlarmKind) (sub : Subject) (s : State) : (clearAlarm k sub s).fixed = s.fixed := rfl

theorem fixed_reserveClaim {o : OrderId} {dest : Dest} {s u : State} {p : Place} (hx : reserveClaim o dest s = .ok (p, u)) :
    u.fixed = s.fixed := by
  unfold reserveClaim at hx
  (repeat' split at hx) <;> simp_all <;> obtain ⟨_, rfl⟩ := hx <;> simp

theorem fixed_occupyClaim {h : Handle} {p : Place} {s u : State} (hx : occupyClaim h p s = .ok u) : u.fixed = s.fixed := by
  unfold occupyClaim at hx
  (repeat' split at hx) <;> simp_all <;> subst hx <;> simp

theorem fixed_commitClaim {o : OrderId} {h : Handle} {p : Place} {s : State} {u : State} (hx : commitClaim o h p s = some u) :
    u.fixed = s.fixed := by
  unfold commitClaim at hx
  (repeat' split at hx) <;> simp_all <;> subst hx <;> simp

@[simp] theorem fixed_commitClaim_getD {o : OrderId} {h : Handle} {p : Place} {s : State} :
    ((commitClaim o h p s).getD s).fixed = s.fixed := by
  cases hx : commitClaim o h p s with
  | none => rfl
  | some u => exact fixed_commitClaim hx

@[simp] theorem fixed_releaseClaim (o : OrderId) (p : Place) (s : State) :
    (releaseClaim o p s).fixed = s.fixed := by
  unfold releaseClaim
  split <;> simp [fixed_ite]

theorem fixed_vacateClaim {h : Handle} {p : Place} {s : State} {u : State} (hx : vacateClaim h p s = some u) :
    u.fixed = s.fixed := by
  unfold vacateClaim at hx
  (repeat' split at hx) <;> simp_all <;> subst hx <;> simp

@[simp] theorem fixed_vacateClaim_getD {h : Handle} {p : Place} {s : State} :
    ((vacateClaim h p s).getD s).fixed = s.fixed := by
  cases hx : vacateClaim h p s with
  | none => rfl
  | some u => exact fixed_vacateClaim hx

@[simp] theorem fixed_updPallet (s : State) (h : Handle) (f : Pallet → Pallet) : (State.updPallet s h f).fixed = s.fixed := rfl

theorem fixed_bindClaim {h : Handle} {o : OrderId} {s : State} {u : State} (hx : bindClaim h o s = some u) :
    u.fixed = s.fixed := by
  unfold bindClaim at hx
  (repeat' split at hx) <;> simp_all <;> subst hx <;> simp

@[simp] theorem fixed_bindClaim_getD {h : Handle} {o : OrderId} {s : State} :
    ((bindClaim h o s).getD s).fixed = s.fixed := by
  cases hx : bindClaim h o s with
  | none => rfl
  | some u => exact fixed_bindClaim hx

@[simp] theorem fixed_boundClaim (h : Handle) (o : OrderId) (f : Pallet → Pallet) (s : State) :
    (boundClaim h o f s).fixed = s.fixed := by
  unfold boundClaim
  split <;> simp [fixed_ite]

@[simp] theorem fixed_pickClaim (h : Handle) (o : OrderId) (s : State) :
    (pickClaim h o s).fixed = s.fixed := by
  unfold pickClaim
  simp

@[simp] theorem fixed_dropClaim (h : Handle) (o : OrderId) (dest : Place) (s : State) :
    (dropClaim h o dest s).fixed = s.fixed := by
  unfold dropClaim
  simp

@[simp] theorem fixed_unbindClaim (h : Handle) (o : OrderId) (s : State) :
    (unbindClaim h o s).fixed = s.fixed := by
  unfold unbindClaim
  simp

@[simp] theorem fixed_abandonClaim (h : Handle) (o : OrderId) (r : Fin 8) (s : State) :
    (abandonClaim h o r s).fixed = s.fixed := by
  unfold abandonClaim
  split <;> simp [fixed_ite]

@[simp] theorem fixed_admitPallet (i : Nat) (tag : Tag) (c : Fin 16) (d : Fin 24) (s : State) :
    (admitPallet i tag c d s).2.fixed = s.fixed := rfl

@[simp] theorem fixed_retirePallet (h : Handle) (s : State) :
    (retirePallet h s).fixed = s.fixed := by
  unfold retirePallet
  split <;> simp

@[simp] theorem fixed_retireDoorSet (d : Fin 24) (s : State) : (retireDoorSet d s).2.fixed = s.fixed := by
  unfold retireDoorSet
  exact fixed_forEach _ (by simp) _ _

@[simp] theorem fixed_placeCmd (st : StationId) (c : StationCmd) (s : State) :
    (placeCmd st c s).fixed = s.fixed := by
  unfold placeCmd
  simp

@[simp] theorem fixed_placeDoor (d : Fin 24) (c : DoorCmd) (s : State) :
    (placeDoor d c s).fixed = s.fixed := by
  unfold placeDoor
  simp

@[simp] theorem fixed_placeEvap (e : Fin 12) (c : CtlPhase) (s : State) :
    (placeEvap e c s).fixed = s.fixed := by
  unfold placeEvap
  simp

@[simp] theorem fixed_placeTerm (t : Fin 16) (c : TermCmd) (s : State) :
    (placeTerm t c s).fixed = s.fixed := by
  unfold placeTerm
  simp

@[simp] theorem fixed_configuredChanged (st : StationId) (before after : Bool) (s : State) :
    (configuredChanged st before after s).fixed = s.fixed := by
  unfold configuredChanged
  simp only [fixed_ite]
  simp

@[simp] theorem fixed_enterPhase (e : Fin 12) (p : Phase) (deadline : Option Time) (s : State) :
    (enterPhase e p deadline s).fixed = s.fixed := by
  unfold enterPhase
  simp

@[simp] theorem fixed_defrostStartNotice (r : Fin 8) (s : State) :
    (defrostStartNotice r s).fixed = s.fixed := by
  unfold defrostStartNotice
  simp

@[simp] theorem fixed_enterPumpdown (e : Fin 12) (s : State) :
    (enterPumpdown e s).fixed = s.fixed := by
  unfold enterPumpdown
  simp

@[simp] theorem fixed_enterHeat (e : Fin 12) (s : State) :
    (enterHeat e s).fixed = s.fixed := by
  unfold enterHeat
  simp

@[simp] theorem fixed_enterDrip (e : Fin 12) (s : State) :
    (enterDrip e s).fixed = s.fixed := by
  unfold enterDrip
  simp

@[simp] theorem fixed_heldNotice (e : Fin 12) (s : State) :
    (heldNotice e s).fixed = s.fixed := by
  unfold heldNotice
  split <;> simp

@[simp] theorem fixed_becomeHeld (r : Fin 8) (s : State) :
    (becomeHeld r s).fixed = s.fixed := by
  unfold becomeHeld
  simp [fixed_forEach]

@[simp] theorem fixed_holdClaim (r : Fin 8) (e : Fin 12) (forced : Bool) (s : State) :
    (holdClaim r e forced s).fixed = s.fixed := by
  unfold holdClaim
  simp only [fixed_ite]
  simp

@[simp] theorem fixed_forcingClaim (r : Fin 8) (e : Fin 12) (s : State) :
    (forcingClaim r e s).fixed = s.fixed := by
  unfold forcingClaim
  simp only [fixed_ite]
  simp

@[simp] theorem fixed_holdWithdrawal (r : Fin 8) (e : Fin 12) (s : State) :
    (holdWithdrawal r e s).fixed = s.fixed := by
  unfold holdWithdrawal
  simp only [fixed_ite]
  simp

@[simp] theorem fixed_reevaluateHold (r : Fin 8) (s : State) :
    (reevaluateHold r s).fixed = s.fixed := by
  unfold reevaluateHold
  simp only [fixed_ite]
  simp

@[simp] theorem fixed_grantAllowance (e : Fin 12) (s : State) :
    (grantAllowance e s).fixed = s.fixed := by
  unfold grantAllowance
  simp

@[simp] theorem fixed_allowanceLoop (n : Nat) (s : State) : (allowanceLoop n s).fixed = s.fixed := by
  induction n generalizing s with
  | zero => rfl
  | succ n ih => unfold allowanceLoop; (repeat' split) <;> simp [ih]

@[simp] theorem fixed_allowancePass (s : State) :
    (allowancePass s).fixed = s.fixed := by
  unfold allowancePass
  simp only [fixed_ite]
  simp

@[simp] theorem fixed_releaseAllowance (e : Fin 12) (s : State) :
    (releaseAllowance e s).fixed = s.fixed := by
  unfold releaseAllowance
  simp

@[simp] theorem fixed_deferralExpires (e : Fin 12) (s : State) :
    (deferralExpires e s).fixed = s.fixed := by
  unfold deferralExpires
  simp only [fixed_ite]
  simp

@[simp] theorem fixed_startDeferral (e : Fin 12) (s : State) :
    (startDeferral e s).fixed = s.fixed := by
  unfold startDeferral
  simp only [fixed_ite]
  simp

@[simp] theorem fixed_raiseDemand (e : Fin 12) (s : State) :
    (raiseDemand e s).fixed = s.fixed := by
  unfold raiseDemand
  simp

@[simp] theorem fixed_demandIfFull (e : Fin 12) (s : State) :
    (demandIfFull e s).fixed = s.fixed := by
  unfold demandIfFull
  simp only [fixed_ite]
  simp

@[simp] theorem fixed_frostExpiry (s : State) :
    (frostExpiry s).fixed = s.fixed := by
  unfold frostExpiry
  (repeat' split) <;> simp [fixed_forEach, fixed_ite]

@[simp] theorem fixed_portalPassage (r : Fin 8) (s : State) :
    (portalPassage r s).fixed = s.fixed := by
  unfold portalPassage
  exact fixed_forEach _ (by intros; simp [fixed_ite]) _ _

@[simp] theorem fixed_endDrip (e : Fin 12) (s : State) :
    (endDrip e s).fixed = s.fixed := by
  unfold endDrip
  simp

@[simp] theorem fixed_endRefreeze (e : Fin 12) (s : State) :
    (endRefreeze e s).fixed = s.fixed := by
  unfold endRefreeze
  split <;> simp

@[simp] theorem fixed_endHeatOnTemperature (e : Fin 12) (s : State) :
    (endHeatOnTemperature e s).fixed = s.fixed := by
  unfold endHeatOnTemperature
  simp

@[simp] theorem fixed_controllerHeard (e : Fin 12) (s : State) :
    (controllerHeard e s).fixed = s.fixed := by
  unfold controllerHeard
  split <;> simp [fixed_ite]

@[simp] theorem fixed_controllerPhaseEffect (e : Fin 12) (fresh before : Bool) (rep : CtlReport) (s : State) :
    (controllerPhaseEffect e fresh before rep s).fixed = s.fixed := by
  unfold controllerPhaseEffect
  simp only
  (repeat' split) <;> simp [fixed_forEach, fixed_ite]

@[simp] theorem fixed_controllerDisagree (e : Fin 12) (rep : CtlReport) (s : State) :
    (controllerDisagree e rep s).fixed = s.fixed := by
  unfold controllerDisagree
  split <;> simp [fixed_ite]

@[simp] theorem fixed_takeControllerReport (e : Fin 12) (fresh : Bool) (rep : CtlReport) (s : State) :
    (takeControllerReport e fresh rep s).fixed = s.fixed := by
  unfold takeControllerReport
  simp

@[simp] theorem fixed_controllerLost (e : Fin 12) (s : State) :
    (controllerLost e s).fixed = s.fixed := by
  unfold controllerLost
  split <;> simp

@[simp] theorem fixed_stopFrost (s : State) :
    (stopFrost s).fixed = s.fixed := rfl

@[simp] theorem fixed_abandonDefrost (e : Fin 12) (s : State) :
    (abandonDefrost e s).fixed = s.fixed := by
  unfold abandonDefrost
  split <;> simp

@[simp] theorem fixed_dfcNotice (entered : Mode) (s : State) :
    (dfcNotice entered s).fixed = s.fixed := by
  unfold dfcNotice
  split <;> simp [fixed_forEach, fixed_ite]

@[simp] theorem fixed_dfcWarmRestart (s : State) : (dfcWarmRestart s).fixed = s.fixed := by
  unfold dfcWarmRestart
  refine (fixed_forEach _ (fun _ _ => ?_) _ _).trans (fixed_stopFrost s)
  unfold evapRestart
  split <;> simp

@[simp] theorem fixed_deriveRoom (r : Fin 8) (s : State) :
    (deriveRoom r s).fixed = s.fixed := by
  unfold deriveRoom
  exact fixed_forEach _ (by intros; simp [fixed_ite]) _ _

@[simp] theorem fixed_evaluationAlarms (r : Fin 8) (before after : RoomThermal) (s : State) :
    (evaluationAlarms r before after s).fixed = s.fixed := by
  unfold evaluationAlarms
  split <;> simp [fixed_ite]

@[simp] theorem fixed_staleAlarm (r : Fin 8) (s : State) :
    (staleAlarm r s).fixed = s.fixed := by
  unfold staleAlarm
  simp only
  (repeat' split) <;> simp [fixed_forEach, fixed_ite]

@[simp] theorem fixed_noteThermalChange (r : Fin 8) (before : ThermalState) (s : State) :
    (noteThermalChange r before s).fixed = s.fixed := by
  unfold noteThermalChange
  simp only [fixed_ite]
  simp

@[simp] theorem fixed_evaluateRoom (r : Fin 8) (s : State) :
    (evaluateRoom r s).fixed = s.fixed := by
  unfold evaluateRoom
  split <;> simp [fixed_ite]

@[simp] theorem fixed_probeStatusAlarm (p : Fin 32) (before : ProbeStatus) (s : State) :
    (probeStatusAlarm p before s).fixed = s.fixed := by
  unfold probeStatusAlarm
  simp only [fixed_ite]
  simp

@[simp] theorem fixed_takeProbeEntry (p : Fin 32) (en : ProbeEntry) (s : State) :
    (takeProbeEntry p en s).fixed = s.fixed := by
  unfold takeProbeEntry
  simp only [fixed_ite]
  simp

@[simp] theorem fixed_takeProbeReport (r : Fin 8) (p0 p1 p2 p3 : ProbeEntry) (s : State) :
    (takeProbeReport r p0 p1 p2 p3 s).fixed = s.fixed := by
  unfold takeProbeReport
  simp

@[simp] theorem fixed_hubLost (r : Fin 8) (s : State) :
    (hubLost r s).fixed = s.fixed := by
  unfold hubLost
  (repeat' split) <;> simp [fixed_forEach, fixed_ite]

@[simp] theorem fixed_modeSilence (s : State) : (modeSilence s).fixed = s.fixed := by
  unfold modeSilence
  exact fixed_forEach _ (by simp) _ _

@[simp] theorem fixed_evaluateAll (s : State) :
    (evaluateAll s).fixed = s.fixed := by
  unfold evaluateAll
  simp [fixed_forEach]

@[simp] theorem fixed_stopAccrual (s : State) :
    (stopAccrual s).fixed = s.fixed := by
  unfold stopAccrual
  simp

@[simp] theorem fixed_tsuWarmRestart (s : State) :
    (tsuWarmRestart s).fixed = s.fixed := by
  unfold tsuWarmRestart
  simp

theorem fixed_useListEntry {d : Fin 24} {o : OrderId} {s : State} {u : State} (hx : useListEntry d o s = some u) :
    u.fixed = s.fixed := by
  unfold useListEntry at hx
  (repeat' split at hx) <;> simp_all <;> subst hx <;> simp

@[simp] theorem fixed_useListEntry_getD {d : Fin 24} {o : OrderId} {s : State} :
    ((useListEntry d o s).getD s).fixed = s.fixed := by
  cases hx : useListEntry d o s with
  | none => rfl
  | some u => exact fixed_useListEntry hx

@[simp] theorem fixed_useListRemoval (d : Fin 24) (o : OrderId) (s : State) :
    (useListRemoval d o s).fixed = s.fixed := by
  unfold useListRemoval
  simp

@[simp] theorem fixed_leaveUseList (d : Option (Fin 24)) (o : OrderId) (s : State) :
    (leaveUseList d o s).fixed = s.fixed := by
  unfold leaveUseList
  split <;> simp

@[simp] theorem fixed_spendDraw (n : Nat) (s : State) :
    (spendDraw n s).fixed = s.fixed := by
  unfold spendDraw
  simp only [fixed_ite]
  simp

@[simp] theorem fixed_countPallet (d : Fin 24) (s : State) :
    (countPallet d s).fixed = s.fixed := by
  unfold countPallet
  split <;> simp [fixed_ite]

theorem fixed_admissionClaim {d : Fin 24} {s : State} {u : State} (hx : admissionClaim d s = some u) :
    u.fixed = s.fixed := by
  unfold admissionClaim at hx
  (repeat' split at hx) <;> simp_all <;> subst hx <;> simp

@[simp] theorem fixed_admissionClaim_getD {d : Fin 24} {s : State} :
    ((admissionClaim d s).getD s).fixed = s.fixed := by
  cases hx : admissionClaim d s with
  | none => rfl
  | some u => exact fixed_admissionClaim hx

theorem fixed_dropThroughClaim {d : Fin 24} {s : State} {u : State} (hx : dropThroughClaim d s = some u) :
    u.fixed = s.fixed := by
  unfold dropThroughClaim at hx
  (repeat' split at hx) <;> simp_all <;> subst hx <;> simp

@[simp] theorem fixed_dropThroughClaim_getD {d : Fin 24} {s : State} :
    ((dropThroughClaim d s).getD s).fixed = s.fixed := by
  cases hx : dropThroughClaim d s with
  | none => rfl
  | some u => exact fixed_dropThroughClaim hx

@[simp] theorem fixed_movedCount (d : Fin 24) (s : State) :
    (movedCount d s).fixed = s.fixed := by
  unfold movedCount
  split <;> simp

@[simp] theorem fixed_updOrder (s : State) (o : OrderId) (f : Order → Order) : (State.updOrder s o f).fixed = s.fixed := rfl

@[simp] theorem fixed_finishOrder (o : OrderId) (out : Outcome) (s : State) :
    (finishOrder o out s).fixed = s.fixed := by
  unfold finishOrder
  simp

@[simp] theorem fixed_termIdle (t : Fin 16) (s : State) :
    (termIdle t s).fixed = s.fixed := by
  unfold termIdle
  simp

@[simp] theorem fixed_grantOrder (o : OrderId) (t : Fin 16) (s : State) :
    (grantOrder o t s).fixed = s.fixed := by
  unfold grantOrder
  (repeat' split) <;> simp

@[simp] theorem fixed_visitTerminal (t : Fin 16) (s : State) :
    (visitTerminal t s).fixed = s.fixed := by
  unfold visitTerminal
  (repeat' split) <;> simp

@[simp] theorem fixed_syncRetry (s : State) :
    (syncRetry s).fixed = s.fixed := by
  unfold syncRetry
  simp

@[simp] theorem fixed_dispatchPass (s : State) :
    (dispatchPass s).fixed = s.fixed := by
  unfold dispatchPass
  split <;> simp [fixed_forEach, fixed_ite]

@[simp] theorem fixed_requeueOrder (o : OrderId) (s : State) :
    (requeueOrder o s).fixed = s.fixed := by
  unfold requeueOrder
  simp

@[simp] theorem fixed_requeueAndRevoke (o : OrderId) (s : State) :
    (requeueAndRevoke o s).fixed = s.fixed := by
  unfold requeueAndRevoke
  (repeat' split) <;> simp

@[simp] theorem fixed_departureNotice (removed : List OrderId) (s : State) :
    (departureNotice removed s).fixed = s.fixed := by
  unfold departureNotice
  simp [fixed_forEach]

@[simp] theorem fixed_withdrawOrder (out : Outcome) (o : OrderId) (s : State) :
    (withdrawOrder out o s).fixed = s.fixed := by
  unfold withdrawOrder
  (repeat' split) <;> simp

@[simp] theorem fixed_holdNotice (h : Handle) (s : State) :
    (holdNotice h s).fixed = s.fixed := by
  unfold holdNotice
  (repeat' split) <;> simp

@[simp] theorem fixed_sessionNotice (d : Fin 24) (s : State) :
    (sessionNotice d s).fixed = s.fixed := by
  unfold sessionNotice
  simp [fixed_forEach]

@[simp] theorem fixed_withdrawTrailerGone (d : Fin 24) (s : State) :
    (withdrawTrailerGone d s).fixed = s.fixed := by
  unfold withdrawTrailerGone
  simp [fixed_forEach]

@[simp] theorem fixed_terminalLost (t : Fin 16) (s : State) :
    (terminalLost t s).fixed = s.fixed := by
  unfold terminalLost
  split <;> simp

@[simp] theorem fixed_terminalHeard (t : Fin 16) (s : State) :
    (terminalHeard t s).fixed = s.fixed := by
  unfold terminalHeard
  (repeat' split) <;> simp

@[simp] theorem fixed_terminalsOffline (s : State) :
    (terminalsOffline s).fixed = s.fixed := by
  unfold terminalsOffline
  exact fixed_forEach _ (by intros; simp [fixed_ite]) _ _

@[simp] theorem fixed_requeueWithRevokeDue (o : OrderId) (s : State) :
    (requeueWithRevokeDue o s).fixed = s.fixed := by
  unfold requeueWithRevokeDue
  (repeat' split) <;> simp

@[simp] theorem fixed_mdsNotice (left entered : Mode) (s : State) :
    (mdsNotice left entered s).fixed = s.fixed := by
  unfold mdsNotice
  (repeat' split) <;> simp [fixed_forEach, fixed_ite]

@[simp] theorem fixed_mdsWarmRestart (s : State) : (mdsWarmRestart s).fixed = s.fixed := by
  unfold mdsWarmRestart
  simp only [fixed_withMds]

theorem fixed_createOrder {i : Nat} {h : Handle} {origin : Place} {dest : Dest} {prio : Priority} {s u : State} {o : OrderId}
    {p : Place} (hx : createOrder i h origin dest prio s = .ok (o, p, u)) : u.fixed = s.fixed := by
  unfold createOrder at hx
  simp only at hx
  split at hx
  · contradiction
  · rename_i hr
    split at hx
    · contradiction
    · rename_i hb
      simp only [Except.ok.injEq, Prod.mk.injEq] at hx
      obtain ⟨_, _, rfl⟩ := hx
      simp [fixed_bindClaim hb, fixed_reserveClaim hr]

theorem fixed_tryMove {h : Handle} {dest : Option Dest} {prio : Priority} {s u : State} {o : OrderId} {p : Place}
    (hx : tryMove h dest prio s = .ok (o, p, u)) : u.fixed = s.fixed := by
  unfold tryMove at hx
  (repeat' split at hx) <;> first | contradiction | exact fixed_createOrder hx

@[simp] theorem fixed_batchElements (a b : Option Dest) (prio : Priority) (xs : List (Handle × Bool)) (s : State) :
    (batchElements a b prio xs s).2.fixed = s.fixed := by
  induction xs generalizing s with
  | nil => rfl
  | cons x xs ih =>
    obtain ⟨h, m⟩ := x
    unfold batchElements
    split
    · rename_i hx; simp only [ih]; exact fixed_tryMove hx
    · rfl
    · simp only [ih]

theorem fixed_tryRedirect {o : OrderId} {x : Order} {dest : Dest} {s u : State} {p : Place}
    (hx : tryRedirect o x dest s = .ok (p, u)) : u.fixed = s.fixed := by
  unfold tryRedirect at hx
  (repeat' split at hx) <;> first | contradiction | skip
  all_goals
    rename_i hr
    simp only [Except.ok.injEq, Prod.mk.injEq] at hx
    obtain ⟨_, rfl⟩ := hx
    simp [fixed_reserveClaim hr]

@[simp] theorem fixed_afterRedirect (o : OrderId) (x : Order) (p : Place) (s : State) :
    (afterRedirect o x p s).fixed = s.fixed := by
  unfold afterRedirect
  simp only
  split
  · simp
  · have key : ∀ u, (if routeDoor x.origin p = x.routeDoor then some s
        else match routeDoor x.origin p with
          | some d => useListEntry d o (leaveUseList x.routeDoor o s)
          | none => some (leaveUseList x.routeDoor o s)) = some u → u.fixed = s.fixed := by
      intro u hu
      split at hu
      · simp_all
      · split at hu
        · simpa using fixed_useListEntry hu
        · simp only [Option.some.injEq] at hu; subst hu; simp
    split
    · rename_i hu _; simp [key _ hu]
    · rename_i hu _; exact key _ hu
    · simp
    · simp
  · split
    · split
      · simp [fixed_ite]
      · simp [fixed_ite]
    · simp [fixed_ite]
  · rfl

@[simp] theorem fixed_budgetRule (h : Handle) (s : State) :
    (budgetRule h s).fixed = s.fixed := by
  unfold budgetRule
  split <;> simp [fixed_ite]

@[simp] theorem fixed_chargePallet (h : Handle) (amount : Nat) (s : State) :
    (chargePallet h amount s).fixed = s.fixed := by
  unfold chargePallet
  simp only [fixed_ite]
  simp

@[simp] theorem fixed_chargeClaim (table : Vector (Option Temp) 8) (s : State) :
    (chargeClaim table s).fixed = s.fixed := by
  unfold chargeClaim
  refine fixed_forEach _ (fun _ _ => ?_) _ _
  split <;> simp

@[simp] theorem fixed_gapClaim (minutes : Nat) (s : State) : (gapClaim minutes s).fixed = s.fixed := by
  unfold gapClaim
  refine fixed_forEach _ (fun _ _ => ?_) _ _
  (repeat' split) <;> simp

@[simp] theorem fixed_accrualExpiry (s : State) :
    (accrualExpiry s).fixed = s.fixed := by
  unfold accrualExpiry
  simp

@[simp] theorem fixed_gapRule (s : State) :
    (gapRule s).fixed = s.fixed := by
  unfold gapRule
  simp only [fixed_ite]
  simp

@[simp] theorem fixed_tsuNotice (left entered : Mode) (s : State) :
    (tsuNotice left entered s).fixed = s.fixed := by
  unfold tsuNotice
  split <;> simp [fixed_ite]

@[simp] theorem fixed_reevaluateClass (c : Fin 16) (s : State) : (reevaluateClass c s).2.fixed = s.fixed := by
  unfold reevaluateClass
  exact fixed_forEach _ (by simp) _ _

@[simp] theorem fixed_doorEnter (d : Fin 24) (st : DoorState) (s : State) :
    (doorEnter d st s).fixed = s.fixed := by
  unfold doorEnter
  simp

@[simp] theorem fixed_doorOutcome (d : Fin 24) (out : DoorOutcome) (s : State) :
    (doorOutcome d out s).fixed = s.fixed := by
  unfold doorOutcome
  simp

@[simp] theorem fixed_doorLeaveTo (d : Fin 24) (st : DoorState) (notify : Bool) (s : State) :
    (doorLeaveTo d st notify s).fixed = s.fixed := by
  unfold doorLeaveTo
  simp only [fixed_ite]
  simp

@[simp] theorem fixed_reevaluateIfClosed (d : Fin 24) (s : State) :
    (reevaluateIfClosed d s).fixed = s.fixed := by
  unfold reevaluateIfClosed
  simp only [fixed_ite]
  simp

@[simp] theorem fixed_enterFault (d : Fin 24) (code : FaultCode) (s : State) :
    (enterFault d code s).fixed = s.fixed := by
  unfold enterFault
  split <;> simp

@[simp] theorem fixed_trailerGone (d : Fin 24) (s : State) :
    (trailerGone d s).fixed = s.fixed := by
  unfold trailerGone
  simp

@[simp] theorem fixed_confirmSeal (d : Fin 24) (s : State) :
    (confirmSeal d s).fixed = s.fixed := by
  unfold confirmSeal
  simp

@[simp] theorem fixed_resolveDoor (d : Fin 24) (s : State) :
    (resolveDoor d s).fixed = s.fixed := by
  unfold resolveDoor
  simp only [fixed_ite]
  simp

@[simp] theorem fixed_clearDoorFault (d : Fin 24) (s : State) :
    (clearDoorFault d s).fixed = s.fixed := by
  unfold clearDoorFault
  (repeat' split) <;> simp [fixed_forEach, fixed_ite]

@[simp] theorem fixed_enterOpen (d : Fin 24) (s : State) :
    (enterOpen d s).fixed = s.fixed := by
  unfold enterOpen
  simp

@[simp] theorem fixed_doorOffline (d : Fin 24) (s : State) :
    (doorOffline d s).fixed = s.fixed := by
  unfold doorOffline
  simp only [fixed_ite]
  simp

@[simp] theorem fixed_unsealComplete (d : Fin 24) (s : State) :
    (unsealComplete d s).fixed = s.fixed := by
  unfold unsealComplete
  split <;> simp

@[simp] theorem fixed_doorReportEffect (d : Fin 24) (s : State) :
    (doorReportEffect d s).fixed = s.fixed := by
  unfold doorReportEffect
  simp only [fixed_ite]
  simp

@[simp] theorem fixed_reconcileDoor (d : Fin 24) (s : State) :
    (reconcileDoor d s).fixed = s.fixed := by
  unfold reconcileDoor
  simp only
  (repeat' split) <;> simp [fixed_forEach, fixed_ite]

@[simp] theorem fixed_takeDoorReport (d : Fin 24) (r : DoorReport) (s : State) :
    (takeDoorReport d r s).fixed = s.fixed := by
  unfold takeDoorReport
  split <;> simp [fixed_ite]

@[simp] theorem fixed_dkcNotice (entered : Mode) (s : State) :
    (dkcNotice entered s).fixed = s.fixed := by
  unfold dkcNotice
  split <;> simp [fixed_forEach, fixed_ite]

@[simp] theorem fixed_doorRestart (d : Fin 24) (s : State) :
    (doorRestart d s).fixed = s.fixed := by
  unfold doorRestart
  (repeat' split) <;> simp [fixed_forEach, fixed_ite]

@[simp] theorem fixed_dkcWarmRestart (s : State) :
    (dkcWarmRestart s).fixed = s.fixed := by
  unfold dkcWarmRestart
  simp [fixed_forEach]

@[simp] theorem fixed_settle (s : State) :
    (settle s).fixed = s.fixed := by
  unfold settle
  simp

@[simp] theorem fixed_refuse (t : Fin 16) (why : RefuseReason) (s : State) :
    (refuse t why s).fixed = s.fixed := by
  unfold refuse
  simp

@[simp] theorem fixed_accept (t : Fin 16) (kind : TermReportKind) (s : State) :
    (accept t kind s).fixed = s.fixed := by
  unfold accept
  simp

@[simp] theorem fixed_takePicked (t : Fin 16) (tag : Tag) (place : Nat) (s : State) :
    (takePicked t tag place s).fixed = s.fixed := by
  unfold takePicked
  split
  · simp
  split
  · simp
  split
  · simp
  split
  · simp
  · rename_i hv; simp [fixed_vacateClaim hv]

theorem fixed_dropThrough {p : Place} {s : State} {u : State} (hx : dropThrough p s = some u) :
    u.fixed = s.fixed := by
  unfold dropThrough at hx
  split at hx
  · exact fixed_dropThroughClaim hx
  · simp_all

@[simp] theorem fixed_dropThrough_getD {p : Place} {s : State} :
    ((dropThrough p s).getD s).fixed = s.fixed := by
  cases hx : dropThrough p s with
  | none => rfl
  | some u => exact fixed_dropThrough hx

@[simp] theorem fixed_movedNotice (origin : Place) (s : State) :
    (movedNotice origin s).fixed = s.fixed := by
  unfold movedNotice
  split <;> simp

@[simp] theorem fixed_completeDrop (t : Fin 16) (o : OrderId) (x : Order) (s : State) :
    (completeDrop t o x s).fixed = s.fixed := by
  unfold completeDrop
  simp [fixed_forEach]

@[simp] theorem fixed_takeDropped (t : Fin 16) (place : Nat) (s : State) : (takeDropped t place s).fixed = s.fixed := by
  unfold takeDropped
  split
  · simp
  split
  · simp
  split
  · simp
  split
  · simp
  split
  · simp
  · rename_i hd
    split
    · simp
    · rename_i hc; simp [fixed_commitClaim hc, fixed_dropThrough hd]

theorem fixed_abandonOrder {o : OrderId} {x : Order} {room : Nat} {out : Outcome} {s u : State}
    (hx : abandonOrder o x room out s = some u) : u.fixed = s.fixed := by
  unfold abandonOrder at hx
  split at hx
  · contradiction
  · split at hx
    · contradiction
    · rename_i hr
      simp only [Option.some.injEq] at hx
      subst hx
      simp [fixed_occupyClaim hr]

@[simp] theorem fixed_takeAbandon (t : Fin 16) (room : Nat) (s : State) : (takeAbandon t room s).fixed = s.fixed := by
  unfold takeAbandon
  split
  · simp
  split
  · simp
  split
  · simp
  · rename_i ha; simp [fixed_abandonOrder ha]

theorem fixed_trySubmit {t : Fin 16} {tag : Tag} {s u : State} {o : OrderId} (hx : trySubmit t tag s = .ok (o, u)) :
    u.fixed = s.fixed := by
  unfold trySubmit at hx
  (repeat' split at hx) <;> first | contradiction | skip
  all_goals
    rename_i hr
    simp only [Except.ok.injEq, Prod.mk.injEq] at hx
    obtain ⟨rfl, rfl⟩ := hx
    exact fixed_createOrder hr

@[simp] theorem fixed_takeSubmit (t : Fin 16) (tag : Tag) (s : State) : (takeSubmit t tag s).fixed = s.fixed := by
  unfold takeSubmit
  split
  · simp
  · rename_i hs; simp [fixed_trySubmit hs]

@[simp] theorem fixed_takeReady (t : Fin 16) (handsFull : Bool) (s : State) :
    (takeReady t handsFull s).fixed = s.fixed := by
  unfold takeReady
  simp only [fixed_ite]
  simp

@[simp] theorem fixed_takeTerminalReport (t : Fin 16) (rep : Report) (s : State) :
    (takeTerminalReport t rep s).fixed = s.fixed := by
  unfold takeTerminalReport
  split <;> simp

@[simp] theorem fixed_ownerLost  (st : StationId) (s : State) :
    (ownerLost st s).fixed = s.fixed := by
  unfold ownerLost
  split <;> simp

@[simp] theorem fixed_ownerHeard  (st : StationId) (s : State) :
    (ownerHeard st s).fixed = s.fixed := by
  unfold ownerHeard
  split <;> simp

@[simp] theorem fixed_takeReport (st : StationId) (fresh : Bool) (rep : Report) (s : State) :
    (takeReport st fresh rep s).fixed = s.fixed := by
  unfold takeReport
  split <;> simp

@[simp] theorem fixed_sendPoll (l : Lane) (st : StationId) (rest : List StationId) (s : State) :
    (sendPoll l st rest s).fixed = s.fixed := by
  unfold sendPoll
  simp

@[simp] theorem fixed_nextPoll (l : Lane) (s : State) :
    (nextPoll l s).fixed = s.fixed := by
  unfold nextPoll
  split <;> simp

@[simp] theorem fixed_beginRound (l : Lane) (s : State) :
    (beginRound l s).fixed = s.fixed := by
  unfold beginRound
  simp

@[simp] theorem fixed_pollEnded (l : Lane) (s : State) :
    (pollEnded l s).fixed = s.fixed := by
  unfold pollEnded
  simp only [fixed_ite]
  simp

@[simp] theorem fixed_roundExpiry (l : Lane) (s : State) :
    (roundExpiry l s).fixed = s.fixed := by
  unfold roundExpiry
  simp only [fixed_ite]
  simp

@[simp] theorem fixed_takeDelivery (st : StationId) (s : State) :
    (takeDelivery st s).fixed = s.fixed := by
  unfold takeDelivery
  simp

@[simp] theorem fixed_heardAgain (st : StationId) (s : State) :
    (heardAgain st s).fixed = s.fixed := by
  unfold heardAgain
  simp

@[simp] theorem fixed_goodAnswer (l : Lane) (st : StationId) (rep : Report) (s : State) :
    (goodAnswer l st rep s).fixed = s.fixed := by
  unfold goodAnswer
  (repeat' split) <;> simp [fixed_forEach, fixed_ite]

@[simp] theorem fixed_declareLost (st : StationId) (s : State) :
    (declareLost st s).fixed = s.fixed := by
  unfold declareLost
  simp only [fixed_ite]
  simp

@[simp] theorem fixed_missPoll (l : Lane) (st : StationId) (s : State) :
    (missPoll l st s).fixed = s.fixed := by
  unfold missPoll
  simp only [fixed_ite]
  simp

@[simp] theorem fixed_missedAnswer (l : Lane) (st : StationId) (s : State) :
    (missedAnswer l st s).fixed = s.fixed := by
  unfold missedAnswer
  simp

@[simp] theorem fixed_stopLane (l : Lane) (s : State) : (stopLane l s).fixed = s.fixed := by
  unfold stopLane
  split
  · rfl
  · exact (fixed_forEach _ (by simp) _ _).trans (by simp)

@[simp] theorem fixed_startLane (l : Lane) (s : State) :
    (startLane l s).fixed = s.fixed := by
  unfold startLane
  simp only [fixed_ite]
  simp

@[simp] theorem fixed_lplNotice (entered : Mode) (s : State) :
    (lplNotice entered s).fixed = s.fixed := by
  unfold lplNotice
  split <;> simp [fixed_forEach, fixed_ite]

@[simp] theorem fixed_startRollCall (l : Lane) (s : State) :
    (startRollCall l s).fixed = s.fixed := by
  unfold startRollCall
  simp

end Sys2Proof.Machine
end

