-- ==== Sys2Proof/Laws/Link.lean ====
section
/-! SUPPORT. What a hand-off does (R174), said once for every request: a request that is next and available goes to its owner; the
owner's refusal changes nothing but the answer queue; and what `settle` and an answer leave. -/

namespace Sys2Proof.Machine

/-! ## The head of the queues -/

/-- Taking the head changes nothing but the queue it stood in. -/
theorem takeHead_eq {s t : State} {f : RequestFrame} (h : s.takeHead = some (f, t)) :
    t = s.withLkp { s.lkp with urgent := t.lkp.urgent, normal := t.lkp.normal } := by
  unfold State.takeHead at h
  split at h
  · rename_i hu; simp only [Option.some.injEq, Prod.mk.injEq] at h; obtain ⟨rfl, rfl⟩ := h; rfl
  · split at h
    · simp only [Option.some.injEq, Prod.mk.injEq] at h; obtain ⟨rfl, rfl⟩ := h; rfl
    · contradiction

theorem takeHead_mode {s t : State} {f : RequestFrame} (h : s.takeHead = some (f, t)) : t.mode = s.mode := by
  rw [takeHead_eq h]; rfl

theorem takeHead_moc {s t : State} {f : RequestFrame} (h : s.takeHead = some (f, t)) : t.moc = s.moc := by
  rw [takeHead_eq h]; rfl

theorem takeHead_answers {s t : State} {f : RequestFrame} (h : s.takeHead = some (f, t)) : t.lkp.answers = s.lkp.answers := by
  rw [takeHead_eq h]; rfl

/-- The urgent queue goes first. -/
theorem takeHead_urgent {s : State} {f : RequestFrame} {rest : List RequestFrame} (h : s.lkp.urgent = f :: rest) :
    s.takeHead = some (f, s.withLkp { s.lkp with urgent := rest }) := by simp [State.takeHead, h]

/-- The normal queue goes where the urgent queue is empty. -/
theorem takeHead_normal {s : State} {f : RequestFrame} {rest : List RequestFrame} (hu : s.lkp.urgent = [])
    (h : s.lkp.normal = f :: rest) : s.takeHead = some (f, s.withLkp { s.lkp with normal := rest }) := by
  simp [State.takeHead, h, hu]

/-! ## Hand-offs -/

/-- A request that is next and available goes to its owner. -/
theorem handOff_taken {code : Byte} {f : RequestFrame} {s t : State} (h : HandsOff code f s t)
    (k : List Byte → State → Reply) : handOff code k s = answerWith f (k f.args t) t := by
  obtain ⟨⟨h1, h2⟩, h3, g, h4, h5⟩ := h
  have hm := takeHead_mode h1
  simp [handOff, h1, h2, h3, decideRequest, h4, hm, h5]

/-- The owner refuses: the answer alone. -/
theorem handOff_refused {code : Byte} {f : RequestFrame} {s t : State} (h : HandsOff code f s t)
    {k : List Byte → State → Reply} {rc : ResultCode} (hk : k f.args t = .error rc) :
    handOff code k s = pushAnswer f rc [] t := by rw [handOff_taken h, hk]; rfl

/-- The owner answers OK or ACCEPTED with its changes. -/
theorem handOff_answered {code : Byte} {f : RequestFrame} {s t u : State} (h : HandsOff code f s t)
    {k : List Byte → State → Reply} {rc : ResultCode} {results : List Byte} (hk : k f.args t = .ok (rc, results, u)) :
    handOff code k s = settle (pushAnswer f rc results u) := by rw [handOff_taken h, hk]; rfl

/-- A request that is next but not available is answered MODE or SUPPLY (R175). -/
theorem handOff_unavailable {code : Byte} {f : RequestFrame} {s t : State} (h : AtHead f s t) (hc : f.code = code) {g : Group}
    {rc : ResultCode} (hg : groupOf code = some g) (hr : g.refusal s.mode = some rc) (k : List Byte → State → Reply) :
    handOff code k s = pushAnswer f rc [] t := by
  obtain ⟨h1, h2⟩ := h
  have hm := takeHead_mode h1
  simp [handOff, h1, h2, hc, decideRequest, hg, hm, hr]

/-- Where the head names another code, or the answer queue is full, nothing happens. -/
theorem handOff_idle {code : Byte} {s : State} (k : List Byte → State → Reply)
    (h : ∀ f t, s.takeHead = some (f, t) → ¬(s.ready = true ∧ f.code = code)) : handOff code k s = s := by
  unfold handOff
  split
  · rename_i f t ht; rw [if_neg (h f t ht)]
  · rfl

/-! ## `settle` and `pushAnswer` -/

theorem settle_eq (s : State) :
    settle s = (s.withMds { s.mds with retryDue := (settle s).mds.retryDue }).withLkp
      { s.lkp with pendingCauses := s.lkp.pendingCauses.set .move (!s.mds.finished.isEmpty) } := rfl

@[simp] theorem settle_pdr (s : State) : (settle s).pdr = s.pdr := rfl
@[simp] theorem settle_ctb (s : State) : (settle s).ctb = s.ctb := rfl
@[simp] theorem settle_dkc (s : State) : (settle s).dkc = s.dkc := rfl
@[simp] theorem settle_tsu (s : State) : (settle s).tsu = s.tsu := rfl
@[simp] theorem settle_dfc (s : State) : (settle s).dfc = s.dfc := rfl
@[simp] theorem settle_alt (s : State) : (settle s).alt = s.alt := rfl
@[simp] theorem settle_lpl (s : State) : (settle s).lpl = s.lpl := rfl
@[simp] theorem settle_moc (s : State) : (settle s).moc = s.moc := rfl
@[simp] theorem settle_pending (s : State) : (settle s).pending = s.pending := rfl
@[simp] theorem settle_answers (s : State) : (settle s).lkp.answers = s.lkp.answers := rfl
@[simp] theorem settle_entries (s : State) : (settle s).mds.entries = s.mds.entries := rfl
@[simp] theorem settle_finished (s : State) : (settle s).mds.finished = s.mds.finished := rfl
@[simp] theorem settle_terminals (s : State) : (settle s).mds.terminals = s.mds.terminals := rfl

/-- `settle` makes the MOVE cause true (R177). -/
theorem settle_moveCause (s : State) : MoveCauseTrue (settle s) := rfl

/-- Judging the retry interval does not change what it is judged by (R59). -/
@[simp] theorem syncRetry_wanted (s : State) : (syncRetry s).retryWanted = s.retryWanted := rfl

/-- `syncRetry` makes the retry interval true (R59). -/
theorem syncRetry_true (s : State) : RetryTrue (syncRetry s) := by
  show (if s.retryWanted = true then some (s.mds.retryDue.getD (s.now + Config.retryInterval)) else none).isSome = s.retryWanted
  split <;> simp_all

/-- Where the retry interval is already true, judging it again changes nothing (R59). -/
theorem syncRetry_of_true {s : State} (h : RetryTrue s) : syncRetry s = s := by
  have e : (if s.retryWanted = true then some (s.mds.retryDue.getD (s.now + Config.retryInterval)) else none) = s.mds.retryDue := by
    unfold RetryTrue at h
    cases hd : s.mds.retryDue <;> simp_all
  unfold syncRetry
  rw [e]
  rfl

/-- A dispatch pass leaves the retry interval true (R59). -/
theorem dispatchPass_retry {s : State} (h : s.mode = .run) : RetryTrue (dispatchPass s) := by
  rw [dispatchPass, if_pos h]
  exact syncRetry_true _

/-- `settle` makes the retry interval true (R59). -/
theorem settle_retry (s : State) : RetryTrue (settle s) := syncRetry_true s

@[simp] theorem pushAnswer_pdr (f : RequestFrame) (rc : ResultCode) (r : List Byte) (s : State) :
    (pushAnswer f rc r s).pdr = s.pdr := rfl
@[simp] theorem pushAnswer_ctb (f : RequestFrame) (rc : ResultCode) (r : List Byte) (s : State) :
    (pushAnswer f rc r s).ctb = s.ctb := rfl
@[simp] theorem pushAnswer_mds (f : RequestFrame) (rc : ResultCode) (r : List Byte) (s : State) :
    (pushAnswer f rc r s).mds = s.mds := rfl
@[simp] theorem pushAnswer_dkc (f : RequestFrame) (rc : ResultCode) (r : List Byte) (s : State) :
    (pushAnswer f rc r s).dkc = s.dkc := rfl
@[simp] theorem pushAnswer_tsu (f : RequestFrame) (rc : ResultCode) (r : List Byte) (s : State) :
    (pushAnswer f rc r s).tsu = s.tsu := rfl
@[simp] theorem pushAnswer_dfc (f : RequestFrame) (rc : ResultCode) (r : List Byte) (s : State) :
    (pushAnswer f rc r s).dfc = s.dfc := rfl
@[simp] theorem pushAnswer_alt (f : RequestFrame) (rc : ResultCode) (r : List Byte) (s : State) :
    (pushAnswer f rc r s).alt = s.alt := rfl
@[simp] theorem pushAnswer_lpl (f : RequestFrame) (rc : ResultCode) (r : List Byte) (s : State) :
    (pushAnswer f rc r s).lpl = s.lpl := rfl
@[simp] theorem pushAnswer_moc (f : RequestFrame) (rc : ResultCode) (r : List Byte) (s : State) :
    (pushAnswer f rc r s).moc = s.moc := rfl
@[simp] theorem pushAnswer_pending (f : RequestFrame) (rc : ResultCode) (r : List Byte) (s : State) :
    (pushAnswer f rc r s).pending = s.pending := rfl
@[simp] theorem pushAnswer_causes (f : RequestFrame) (rc : ResultCode) (r : List Byte) (s : State) :
    (pushAnswer f rc r s).lkp.pendingCauses = s.lkp.pendingCauses := rfl
theorem pushAnswer_answers (f : RequestFrame) (rc : ResultCode) (r : List Byte) (s : State) :
    (pushAnswer f rc r s).lkp.answers = s.lkp.answers ++ [{ tag := f.tag, code := f.code, result := rc, results := r }] := rfl

/-! ## Exchanges -/

/-- An exchange shifts out one byte for each byte received (R171). -/
@[simp] theorem shiftedOut_length (x : Exchange) (bytes : Nat) : (x.shiftedOut bytes).length = bytes := by
  simp only [Exchange.shiftedOut, List.length_append, List.length_take, List.length_replicate]
  omega

/-- What it shifts out while its frame lasts is the frame (R171). -/
theorem shiftedOut_frame (x : Exchange) {bytes k : Nat} (hk : k < bytes) (hx : k < x.out.length) :
    (x.shiftedOut bytes)[k]? = x.out[k]? := by
  simp [Exchange.shiftedOut, List.getElem?_append, hk, hx]

/-- What it shifts out after its frame is 00h (11.2). -/
theorem shiftedOut_fill (x : Exchange) {bytes k : Nat} (hk : k < bytes) (hx : x.out.length ≤ k) :
    (x.shiftedOut bytes)[k]? = some 0x00#8 := by
  have : ¬k < min bytes x.out.length := by omega
  have e : min bytes x.out.length = x.out.length := by omega
  rw [Exchange.shiftedOut, List.getElem?_append, List.length_take, if_neg this, e, List.getElem?_replicate, if_pos (by omega)]

/-! ## Answers on a lane -/

/-- A good answer of a HEARD station whose report is of the row's kind is taken as a report, then the lane's next poll goes out. -/
theorem reportRow_taken {st : StationId} {rep : Report} {received : List Byte} {s : State} (h : Answers st rep received s)
    {ofRow : Report → Bool} (hr : ofRow rep = true) :
    reportRow st.lane ofRow received s = settle (pollEnded st.lane (takeReport st true rep (takeDelivery st s))) := by
  obtain ⟨h1, h2, h3⟩ := h
  simp [reportRow, State.judged, h1, h2, hr, goodAnswer, h3]

/-- Bytes that are no good answer, or a good answer of another kind, are no event of a report's row (log entry 2). -/
theorem reportRow_idle {l : Lane} {received : List Byte} {s : State} {ofRow : Report → Bool}
    (h : ∀ st rep, s.judged l received = some (st, some rep) → ofRow rep = false) : reportRow l ofRow received s = s := by
  unfold reportRow
  split
  · rename_i st rep hj; rw [h st rep hj]; rfl
  · rfl

end Sys2Proof.Machine
end

