-- ==== Sys2Proof/Laws/Wire.lean ====
section
/-! SUPPORT. Numbers and checks on the link and the lanes (R198): the length of a number, reading back what was written, and the check of
a frame that was given its check. -/

namespace Sys2Proof.Machine

@[simp] theorem length_be (k n : Nat) : (be k n).length = k := by
  induction k with
  | zero => rfl
  | succ k ih => simp [be, ih]

theorem beNat_append (xs : List Byte) (b : Byte) : beNat (xs ++ [b]) = beNat xs * 256 + b.toNat := by
  simp [beNat, List.foldl_append]

theorem beNat_from (a : Nat) (bs : List Byte) :
    bs.foldl (fun a b => a * 256 + b.toNat) a = a * 256 ^ bs.length + beNat bs := by
  induction bs generalizing a with
  | nil => simp [beNat]
  | cons b bs ih =>
    have hb : beNat (b :: bs) = bs.foldl (fun a b => a * 256 + b.toNat) b.toNat := by simp [beNat]
    rw [List.foldl_cons, ih, hb, ih b.toNat, List.length_cons, Nat.pow_succ]
    ring

/-- The number read from the `k` bytes of `n` is `n` within `k` bytes. -/
theorem beNat_be (k n : Nat) : beNat (be k n) = n % 256 ^ k := by
  induction k with
  | zero => simp [be, beNat, Nat.mod_one]
  | succ k ih =>
    have h : beNat (be (k + 1) n) = (be k n).foldl (fun a b => a * 256 + b.toNat) (n / 256 ^ k % 256) := by
      simp [beNat, be]
    rw [h, beNat_from, length_be, ih, Nat.pow_succ, Nat.mod_mul]
    ring

theorem beNat_lt (bs : List Byte) : beNat bs < 256 ^ bs.length := by
  induction bs with
  | nil => simp [beNat]
  | cons b bs ih =>
    have hb : beNat (b :: bs) = bs.foldl (fun a b => a * 256 + b.toNat) b.toNat := by simp [beNat]
    rw [hb, beNat_from, List.length_cons, Nat.pow_succ]
    have h1 : b.toNat < 256 := b.isLt
    have h2 : b.toNat * 256 ^ bs.length ≤ 255 * 256 ^ bs.length := Nat.mul_le_mul_right _ (by omega)
    omega

/-- A message that was given its check passes it (R198). -/
theorem stripCheck_withCheck (bs : List Byte) : stripCheck (withCheck bs) = some bs := by
  have hl : (withCheck bs).length - 2 = bs.length := by simp [withCheck]
  have ht : (withCheck bs).take bs.length = bs := by simp [withCheck]
  have hd : (withCheck bs).drop bs.length = be 2 (crc bs).toNat := by simp [withCheck]
  have h2 : 2 ≤ (withCheck bs).length := by simp [withCheck]
  simp only [stripCheck, hl, ht, hd]
  simp [h2]

/-- A flag reads back. -/
@[simp] theorem readFlag_flag (b : Bool) : readFlag (if b then 1#8 else 0#8) = some b := by cases b <;> decide

/-- A temperature of 16 bits reads back. -/
theorem readTemp_be (t : Int) (h : -32768 ≤ t ∧ t ≤ 32767) :
    readTemp (BitVec.ofNat 8 ((BitVec.ofInt 16 t).toNat / 256 ^ 1)) (BitVec.ofNat 8 ((BitVec.ofInt 16 t).toNat / 256 ^ 0)) = t := by
  have hb : (BitVec.ofNat 8 ((BitVec.ofInt 16 t).toNat / 256 ^ 1) ++ BitVec.ofNat 8 ((BitVec.ofInt 16 t).toNat / 256 ^ 0))
      = BitVec.ofInt 16 t := by
    apply BitVec.eq_of_toNat_eq
    rw [BitVec.toNat_append, BitVec.toNat_ofNat, BitVec.toNat_ofNat]
    have := (BitVec.ofInt 16 t).isLt
    generalize (BitVec.ofInt 16 t).toNat = n at *
    rw [← Nat.shiftLeft_add_eq_or_of_lt (Nat.mod_lt _ (by decide)), Nat.shiftLeft_eq]
    omega
  unfold readTemp
  rw [hb, BitVec.toInt_ofInt]
  have h1 := h.1
  have h2 := h.2
  rw [Int.bmod_def]
  have e : ((2 ^ 16 : Nat) : Int) = 65536 := by norm_num
  rw [e]
  show @Eq Int _ _
  split <;> omega

end Sys2Proof.Machine
end

