-- ==== Sys2Proof/Laws/Requests.lean ====
section
/-! SUPPORT. Reading back the arguments of a request: numbers, identifiers and codes, in the form the owners' readers meet them. -/

namespace Sys2Proof.Machine

/-! ## Bytes of numbers -/

theorem be_one (n : Nat) : be 1 n = [BitVec.ofNat 8 n] := by simp [be]

theorem be_two (n : Nat) : be 2 n = [BitVec.ofNat 8 (n / 256), BitVec.ofNat 8 n] := by simp [be]

theorem be_four (n : Nat) :
    be 4 n = [BitVec.ofNat 8 (n / 16777216), BitVec.ofNat 8 (n / 65536), BitVec.ofNat 8 (n / 256), BitVec.ofNat 8 n] := by
  simp [be]

theorem be_six (n : Nat) :
    be 6 n = [BitVec.ofNat 8 (n / 1099511627776), BitVec.ofNat 8 (n / 4294967296), BitVec.ofNat 8 (n / 16777216),
      BitVec.ofNat 8 (n / 65536), BitVec.ofNat 8 (n / 256), BitVec.ofNat 8 n] := by simp [be]

/-- A 16-bit number reads back from its two bytes. -/
theorem num_be {n : Nat} (h : n < 65536) : num (BitVec.ofNat 8 (n / 256)) (BitVec.ofNat 8 n) = n := by
  have := beNat_be 2 n
  rw [be_two] at this
  rw [num, this]
  omega

/-- A 32-bit number reads back from its four bytes. -/
theorem beNat_four {n : Nat} (h : n < 4294967296) :
    beNat [BitVec.ofNat 8 (n / 16777216), BitVec.ofNat 8 (n / 65536), BitVec.ofNat 8 (n / 256), BitVec.ofNat 8 n] = n := by
  have := beNat_be 4 n
  rw [be_four] at this
  rw [this]
  omega

/-- A tag reads back from its six bytes. -/
theorem tag_be (t : Tag) :
    BitVec.ofNat 48 (beNat [BitVec.ofNat 8 (t.toNat / 1099511627776), BitVec.ofNat 8 (t.toNat / 4294967296),
      BitVec.ofNat 8 (t.toNat / 16777216), BitVec.ofNat 8 (t.toNat / 65536), BitVec.ofNat 8 (t.toNat / 256),
      BitVec.ofNat 8 t.toNat]) = t := by
  have := beNat_be 6 t.toNat
  rw [be_six] at this
  rw [this]
  have h := t.isLt
  rw [Nat.mod_eq_of_lt (by omega)]
  simp

theorem temp_be {t : Int} (h1 : -32768 ≤ t) (h2 : t ≤ 32767) :
    readTemp (BitVec.ofNat 8 ((BitVec.ofInt 16 t).toNat / 256)) (BitVec.ofNat 8 (BitVec.ofInt 16 t).toNat) = t := by
  simpa using readTemp_be t ⟨h1, h2⟩

/-! ## Identifiers and codes -/

theorem Handle.code_lt (h : Handle) : h.code < 65536 := by unfold Handle.code; omega
theorem OrderId.code_lt (o : OrderId) : o.code < 65536 := by unfold OrderId.code; omega

@[simp] theorem readHandle_code (h : Handle) : readHandle h.code = h := by
  obtain ⟨⟨i, hi⟩, ⟨g, hg⟩⟩ := h
  simp only [readHandle, Handle.code, Handle.mk.injEq, Fin.ext_iff, Fin.val_ofNat]
  omega

@[simp] theorem readOrderId_code (o : OrderId) : readOrderId o.code = o := by
  obtain ⟨⟨i, hi⟩, ⟨g, hg⟩⟩ := o
  simp only [readOrderId, OrderId.code, OrderId.mk.injEq, Fin.ext_iff, Fin.val_ofNat]
  omega

@[simp] theorem readFin_val {k : Nat} (i : Fin k) : readFin i.1 k = some i := by simp [readFin]

theorem readFin_of_le {n k : Nat} (h : k ≤ n) : readFin n k = none := by simp [readFin, Nat.not_lt.mpr h]
/-- A flag byte is 00h or 01h (R201). -/
theorem readFlag_of_gt {b : Byte} (h : 1 < b.toNat) : readFlag b = none := by
  unfold readFlag; repeat' split
  all_goals first | rfl | simp_all
/-- A room kind byte is at most 03h (R201). -/
theorem readRoomKind_of_gt {b : Byte} (h : 3 < b.toNat) : readRoomKind b = none := by
  unfold readRoomKind; split <;> first | rfl | omega
/-- A list of numbers has two bytes for each. -/
theorem readNums_length (l : List Byte) (ns : List Nat) (h : readNums l = some ns) : l.length = 2 * ns.length := by
  match l with
  | [] => cases h; rfl
  | [_] => cases h
  | a :: b :: r =>
    simp only [readNums, Option.map_eq_some_iff] at h
    obtain ⟨m, hm, rfl⟩ := h
    have := readNums_length r m hm
    simp [this]; omega

@[simp] theorem readPriority_byte (p : Priority) : readPriority p.byte = some p := by cases p <;> rfl
@[simp] theorem readDirection_byte (d : Direction) : readDirection d.byte = some d := by cases d <;> rfl
@[simp] theorem readRoomKind_byte (k : RoomKind) : readRoomKind k.byte = some k := by cases k <;> rfl
@[simp] theorem readCause_byte (c : Cause) : readCause c.byte = some c := by cases c <;> rfl

end Sys2Proof.Machine
end

