-- ==== Sys2Proof/Laws/Restart.lean ====
section
/-! SUPPORT. What a warm restart leaves in each block (R76, R102, R105, R120, R144, R157, R170, R183): one lemma for each record after
`warmRestartBlocks`, over one lemma for each block's part. -/

namespace Sys2Proof.Machine

/-! ## Loops whose turns do not disturb each other -/

/-- A loop over different elements folds what each turn does to `acc`, where a turn depends only on what no other turn changes. The
turns may rely on a property `P` that they keep. -/
theorem acc_forEach_on {α β γ : Type} (P : State → Prop) (acc : State → β) (part : α → State → γ) (turn : α → γ → β → β)
    (f : α → State → State) (keeps : ∀ x s, P s → P (f x s)) (hacc : ∀ x s, P s → acc (f x s) = turn x (part x s) (acc s))
    (hpart : ∀ x y s, y ≠ x → P s → part y (f x s) = part y s) (xs : List α) (s : State) (hs : P s) (h : xs.Nodup) :
    acc (s.forEach xs f) = xs.foldl (fun a x => turn x (part x s) a) (acc s) := by
  induction xs generalizing s with
  | nil => rfl
  | cons x xs ih =>
    rw [forEach_cons, ih _ (keeps x s hs) h.of_cons, hacc x s hs, List.foldl_cons]
    refine List.foldl_ext _ _ _ fun a y hy => ?_
    rw [hpart x y s (fun e => (List.nodup_cons.1 h).1 (e ▸ hy)) hs]
theorem acc_forEach {α β γ : Type} (acc : State → β) (part : α → State → γ) (turn : α → γ → β → β) (f : α → State → State)
    (hacc : ∀ x s, acc (f x s) = turn x (part x s) (acc s)) (hpart : ∀ x y s, y ≠ x → part y (f x s) = part y s)
    (xs : List α) (s : State) (h : xs.Nodup) :
    acc (s.forEach xs f) = xs.foldl (fun a x => turn x (part x s) a) (acc s) :=
  acc_forEach_on (fun _ => True) acc part turn f (fun _ _ _ => trivial) (fun x s _ => hacc x s) (fun x y s e _ => hpart x y s e) xs s
    trivial h

/-- What no turn changes, the loop does not change. -/
theorem frame_forEach {α β : Type} (π : State → β) (f : α → State → State) (h : ∀ x s, π (f x s) = π s) (xs : List α) (s : State) :
    π (s.forEach xs f) = π s :=
  forEach_rel (fun a b => π b = π a) (fun _ => rfl) (fun _ _ _ h k => k.trans h) f h xs s

theorem foldl_other {α β : Type} [DecidableEq α] (e : α) (v : α → β) (xs : List α) (a : β) (h : e ∉ xs) :
    xs.foldl (fun a x => if e = x then v x else a) a = a := by
  induction xs generalizing a with
  | nil => rfl
  | cons x xs ih =>
    rw [List.mem_cons, not_or] at h
    rw [List.foldl_cons, if_neg h.1, ih a h.2]

/-- A fold that writes the value of one element ends with it. -/
theorem foldl_point {α β : Type} [DecidableEq α] (e : α) (v : α → β) (xs : List α) (a : β) (he : e ∈ xs) (h : xs.Nodup) :
    xs.foldl (fun a x => if e = x then v x else a) a = v e := by
  induction xs generalizing a with
  | nil => cases he
  | cons x xs ih =>
    rw [List.foldl_cons]
    by_cases hx : e = x
    · subst hx; rw [if_pos rfl, foldl_other e v xs _ (List.nodup_cons.1 h).1]
    · exact ih _ ((List.mem_cons.1 he).resolve_left hx) h.of_cons

theorem foldl_flag {α : Type} (p : α → Bool) (xs : List α) (b : Bool) :
    xs.foldl (fun b x => if p x then true else b) b = (b || xs.any p) := by
  induction xs generalizing b with
  | nil => simp
  | cons x xs ih => rw [List.foldl_cons, ih, List.any_cons]; cases p x <;> simp

theorem insertFin_last {n : Nat} (i : Fin n) (l : List (Fin n)) (h : ∀ a ∈ l, a < i) : insertFin i l = l ++ [i] := by
  induction l with
  | nil => rfl
  | cons a l ih =>
    have ha := h a List.mem_cons_self
    rw [insertFin, if_neg (by omega), if_neg (by omega), ih fun b hb => h b (List.mem_cons_of_mem _ hb), List.cons_append]

/-- A changed set filled by ascending number lists those that were put into it. -/
theorem foldl_insertFin {n : Nat} (p : Fin n → Bool) (xs l : List (Fin n)) (h : xs.Pairwise (· < ·))
    (hl : ∀ a ∈ l, ∀ x ∈ xs, a < x) :
    xs.foldl (fun l x => if p x then insertFin x l else l) l = l ++ xs.filter p := by
  induction xs generalizing l with
  | nil => simp
  | cons x xs ih =>
    have hx := List.pairwise_cons.1 h
    rw [List.foldl_cons]
    cases hp : p x
    · rw [if_neg (by simp), ih l hx.2 fun a ha y hy => hl a ha y (List.mem_cons_of_mem _ hy), List.filter_cons_of_neg (by simp [hp])]
    · rw [if_pos rfl, insertFin_last x l fun a ha => hl a ha x List.mem_cons_self, ih _ hx.2, List.filter_cons_of_pos hp]
      · simp
      · intro a ha y hy
        rcases List.mem_append.1 ha with ha | ha
        · exact hl a ha y (List.mem_cons_of_mem _ hy)
        · rw [List.mem_singleton.1 ha]; exact hx.1 y hy

theorem finRange_ascending (n : Nat) : (List.finRange n).Pairwise (· < ·) := List.pairwise_lt_finRange n

/-! ## What each block's restart may touch -/

/-- Only DKC, ALT, LKP and LPL change. -/
def DkcOnly (a b : State) : Prop := b = (((a.withDkc b.dkc).withAlt b.alt).withLkp b.lkp).withLpl b.lpl
/-- Only DFC and LKP change, and DFC's allowance does not. -/
def DfcOnly (a b : State) : Prop := b = (a.withDfc b.dfc).withLkp b.lkp ∧ b.dfc.allowance = a.dfc.allowance
/-- Only TSU, ALT and LKP change. -/
def TsuOnly (a b : State) : Prop := b = ((a.withTsu b.tsu).withAlt b.alt).withLkp b.lkp

theorem dkcOnly_forEach {α : Type} (f : α → State → State) (h : ∀ x s, DkcOnly s (f x s)) (xs : List α) (s : State) :
    DkcOnly s (s.forEach xs f) := by
  refine forEach_rel DkcOnly (fun _ => rfl) (fun a b c h k => ?_) f h xs s
  exact Eq.trans k ((congrArg (fun x : State => (((x.withDkc c.dkc).withAlt c.alt).withLkp c.lkp).withLpl c.lpl) h).trans rfl)
theorem dfcOnly_trans {a b c : State} (h : DfcOnly a b) (k : DfcOnly b c) : DfcOnly a c :=
  ⟨k.1.trans ((congrArg (fun x : State => (x.withDfc c.dfc).withLkp c.lkp) h.1).trans rfl), k.2.trans h.2⟩
theorem dfcOnly_forEach {α : Type} (f : α → State → State) (h : ∀ x s, DfcOnly s (f x s)) (xs : List α) (s : State) :
    DfcOnly s (s.forEach xs f) :=
  forEach_rel DfcOnly (fun _ => ⟨rfl, rfl⟩) (fun _ _ _ => dfcOnly_trans) f h xs s
theorem tsuOnly_trans {a b c : State} (h : TsuOnly a b) (k : TsuOnly b c) : TsuOnly a c :=
  Eq.trans k ((congrArg (fun x : State => ((x.withTsu c.tsu).withAlt c.alt).withLkp c.lkp) h).trans rfl)
theorem tsuOnly_forEach {α : Type} (f : α → State → State) (h : ∀ x s, TsuOnly s (f x s)) (xs : List α) (s : State) :
    TsuOnly s (s.forEach xs f) :=
  forEach_rel TsuOnly (fun _ => rfl) (fun _ _ _ => tsuOnly_trans) f h xs s

/-! ## DKC (R102) -/

theorem dkc_doorRestart (d : Fin 24) (s : State) : (doorRestart d s).dkc = (s.updDoor d (Door.restarted s.now)).dkc := by
  unfold doorRestart; dsimp only; repeat' split
  all_goals rfl
theorem alt_doorRestart (d : Fin 24) (s : State) : (doorRestart d s).alt =
    if (s.door d).restarts && (s.door d).state = .opened then s.alt.clear .doorOpenLong (.door d) else s.alt := by
  unfold doorRestart; dsimp only; repeat' split
  all_goals rfl
theorem lkp_doorRestart (d : Fin 24) (s : State) : (doorRestart d s).lkp =
    if (s.door d).restarts then
      { s.lkp with pendingCauses := { s.lkp.pendingCauses with door := true }, doorSet := insertFin d s.lkp.doorSet }
    else s.lkp := by
  unfold doorRestart; dsimp only; repeat' split
  all_goals rfl
theorem dkcOnly_doorRestart (d : Fin 24) (s : State) : DkcOnly s (doorRestart d s) := by
  unfold doorRestart; dsimp only; repeat' split
  all_goals rfl
theorem now_doorRestart (d : Fin 24) (s : State) : (doorRestart d s).now = s.now := by
  unfold doorRestart; dsimp only; repeat' split
  all_goals rfl
theorem door_doorRestart (d e : Fin 24) (s : State) : (doorRestart d s).door e =
    if e = d then (s.door d).restarted s.now else s.door e := by
  have h : (doorRestart d s).door e = (s.updDoor d (Door.restarted s.now)).door e := by unfold State.door; rw [dkc_doorRestart]
  rw [h, door_updDoor]
/-- A door in service ends its restart with STOP in its slot; no other slot changes. -/
theorem station_doorRestart (d : Fin 24) (s : State) (st : StationId) : (doorRestart d s).station st =
    if st = .door d ∧ (s.door d).inService = true then { s.station st with slot := some (.door .stop), slotSent := false }
    else s.station st := by
  have placed (u : State) (h : u.lpl = s.lpl) : (placeDoor d .stop u).station st =
      if st = .door d then { s.station st with slot := some (.door .stop), slotSent := false } else s.station st := by
    have e (x : StationId) : u.station x = s.station x := by unfold State.station; rw [h]
    rw [placeDoor, placeCmd, station_updStation]
    split
    · rename_i hs; rw [e, hs]
    · exact e st
  unfold doorRestart
  dsimp only
  split
  · rename_i hs
    simp only [hs, and_true]
    refine placed _ ?_
    repeat' split
    all_goals rfl
  · rename_i hs
    have hn : ¬(st = .door d ∧ (s.door d).inService = true) := fun h => hs h.2
    rw [if_neg hn]
    repeat' split
    all_goals rfl

theorem door_dkcWarmRestart (s : State) (e : Fin 24) : (dkcWarmRestart s).door e = (s.door e).restarted s.now := by
  rw [dkcWarmRestart, acc_forEach (fun t => t.door e) (fun d t => (t.door d).restarted t.now) (fun d x a => if e = d then x else a)
    doorRestart (fun d t => door_doorRestart d e t) (fun d y t h => ?_) _ s (List.nodup_finRange 24)]
  · exact foldl_point e (fun d => (s.door d).restarted s.now) _ _ (List.mem_finRange e) (List.nodup_finRange 24)
  · simp only [door_doorRestart, now_doorRestart, if_neg h]
theorem station_dkcWarmRestart (s : State) (st : StationId) : (dkcWarmRestart s).station st =
    if ∃ d, st = .door d ∧ (s.door d).inService = true then
      { s.station st with slot := some (.door .stop), slotSent := false }
    else s.station st := by
  have kept (x : Door) (now : Time) : (x.restarted now).inService = x.inService := by
    unfold Door.restarted; repeat' split
    all_goals rfl
  have inService (d e : Fin 24) (t : State) : ((doorRestart d t).door e).inService = (t.door e).inService := by
    rw [door_doorRestart]; split
    · rename_i he; rw [kept, he]
    · rfl
  have loop : ∀ (xs : List (Fin 24)) (s : State), (s.forEach xs doorRestart).station st =
      if ∃ d ∈ xs, st = .door d ∧ (s.door d).inService = true then
        { s.station st with slot := some (.door .stop), slotSent := false }
      else s.station st := by
    intro xs
    induction xs with
    | nil => intro s; simp
    | cons d xs ih =>
      intro s
      rw [forEach_cons, ih]
      simp only [inService, station_doorRestart, List.mem_cons, exists_eq_or_imp]
      by_cases h1 : st = .door d ∧ (s.door d).inService = true
      · simp only [h1, true_or, if_true, and_self]
        split <;> rfl
      · simp only [h1, false_or, if_false]
  rw [dkcWarmRestart, loop]
  simp
theorem alt_dkcWarmRestart (s : State) : (dkcWarmRestart s).alt =
    ((List.finRange 24).filter fun d => (s.door d).restarts && (s.door d).state = .opened).foldl
      (fun a d => a.clear .doorOpenLong (.door d)) s.alt := by
  rw [dkcWarmRestart, acc_forEach (·.alt) (fun d t => (t.door d).restarts && (t.door d).state = .opened)
    (fun d p a => if p then a.clear .doorOpenLong (.door d) else a) doorRestart alt_doorRestart
    (fun d y t h => by simp only [door_doorRestart, if_neg h]) _ s (List.nodup_finRange 24), List.foldl_filter]
theorem lkp_dkcWarmRestart (s : State) (h : s.lkp.doorSet = []) : (dkcWarmRestart s).lkp =
    { s.lkp with
      pendingCauses :=
        { s.lkp.pendingCauses with door := s.lkp.pendingCauses.door || (List.finRange 24).any fun d => (s.door d).restarts }
      doorSet := (List.finRange 24).filter fun d => (s.door d).restarts } := by
  have fold (xs : List (Fin 24)) (l : Lkp) (p : Fin 24 → Bool) :
      xs.foldl (fun (l : Lkp) d => if p d then
        { l with pendingCauses := { l.pendingCauses with door := true }, doorSet := insertFin d l.doorSet } else l) l
      = { l with
          pendingCauses := { l.pendingCauses with door := xs.foldl (fun b x => if p x then true else b) l.pendingCauses.door }
          doorSet := xs.foldl (fun l x => if p x then insertFin x l else l) l.doorSet } := by
    induction xs generalizing l with
    | nil => rfl
    | cons x xs ih => simp only [List.foldl_cons, ih]; cases p x <;> rfl
  rw [dkcWarmRestart, acc_forEach (·.lkp) (fun d t => (t.door d).restarts)
    (fun d p l => if p then
      { l with pendingCauses := { l.pendingCauses with door := true }, doorSet := insertFin d l.doorSet } else l) doorRestart
    lkp_doorRestart (fun d y t h => by simp only [door_doorRestart, if_neg h]) _ s (List.nodup_finRange 24), fold, foldl_flag,
    foldl_insertFin _ _ _ (finRange_ascending 24) (by rw [h]; simp), h, List.nil_append]
theorem dkcOnly_dkcWarmRestart (s : State) : DkcOnly s (dkcWarmRestart s) := by
  unfold dkcWarmRestart; exact dkcOnly_forEach _ dkcOnly_doorRestart _ s
theorem holds_dkcWarmRestart (s : State) : (dkcWarmRestart s).dkc.holds = s.dkc.holds := by
  unfold dkcWarmRestart; exact frame_forEach (·.dkc.holds) doorRestart (fun d t => by rw [dkc_doorRestart]; rfl) _ s

/-! ## DFC (R144) -/

/-- R144: the evaporator record after a warm restart. -/
theorem evap_evapRestart (e g : Fin 12) (s : State) : (evapRestart e s).evap g =
    if g = e then
      if (s.evap e).phase.restarts then
        { s.evap e with phase := .fault, phaseSince := s.now, deadline := none, deferralDue := none }
      else s.evap e
    else s.evap g := by
  unfold evapRestart
  split
  · have h : (enterPhase e .fault none s).evap g = if g = e then
        { s.evap e with phase := .fault, phaseSince := s.now, deadline := none, deferralDue := none } else s.evap g :=
      evap_updEvap s e g _
    rw [h]
  · split
    · rename_i hg; rw [hg]
    · rfl
theorem lkp_evapRestart (e : Fin 12) (s : State) : (evapRestart e s).lkp =
    if (s.evap e).phase.restarts then
      { s.lkp with pendingCauses := { s.lkp.pendingCauses with defrost := true }, defrostSet := insertFin e s.lkp.defrostSet }
    else s.lkp := by
  unfold evapRestart; split <;> rfl
theorem dfcOnly_evapRestart (e : Fin 12) (s : State) : DfcOnly s (evapRestart e s) := by
  unfold evapRestart; split <;> exact ⟨rfl, rfl⟩
theorem now_evapRestart (e : Fin 12) (s : State) : (evapRestart e s).now = s.now := by unfold evapRestart; split <;> rfl

theorem evap_stopFrost (s : State) (e : Fin 12) : (stopFrost s).evap e = { s.evap e with deferralDue := none } :=
  Vector.getElem_map ..

theorem evap_dfcWarmRestart (s : State) (e : Fin 12) : (dfcWarmRestart s).evap e =
    if (s.evap e).phase.restarts then
      { s.evap e with phase := .fault, phaseSince := s.now, deadline := none, deferralDue := none }
    else { s.evap e with deferralDue := none } := by
  rw [dfcWarmRestart, acc_forEach (fun t => t.evap e)
    (fun g t => if (t.evap g).phase.restarts then
      { t.evap g with phase := .fault, phaseSince := t.now, deadline := none, deferralDue := none } else t.evap g)
    (fun g x a => if e = g then x else a) evapRestart (fun g t => evap_evapRestart g e t) (fun g y t h => ?_) _ _
    (List.nodup_finRange 12), foldl_point e _ _ _ (List.mem_finRange e) (List.nodup_finRange 12)]
  · rw [evap_stopFrost]; rfl
  · simp only [evap_evapRestart, now_evapRestart, if_neg h]
theorem lkp_dfcWarmRestart (s : State) (h : s.lkp.defrostSet = []) : (dfcWarmRestart s).lkp =
    { s.lkp with
      pendingCauses :=
        { s.lkp.pendingCauses with
          defrost := s.lkp.pendingCauses.defrost || (List.finRange 12).any fun e => (s.evap e).phase.restarts }
      defrostSet := (List.finRange 12).filter fun e => (s.evap e).phase.restarts } := by
  have fold (xs : List (Fin 12)) (l : Lkp) (p : Fin 12 → Bool) :
      xs.foldl (fun (l : Lkp) e => if p e then
        { l with pendingCauses := { l.pendingCauses with defrost := true }, defrostSet := insertFin e l.defrostSet } else l) l
      = { l with
          pendingCauses := { l.pendingCauses with defrost := xs.foldl (fun b x => if p x then true else b) l.pendingCauses.defrost }
          defrostSet := xs.foldl (fun l x => if p x then insertFin x l else l) l.defrostSet } := by
    induction xs generalizing l with
    | nil => rfl
    | cons x xs ih => simp only [List.foldl_cons, ih]; cases p x <;> rfl
  rw [dfcWarmRestart, acc_forEach (·.lkp) (fun e t => (t.evap e).phase.restarts)
    (fun e p l => if p then
      { l with pendingCauses := { l.pendingCauses with defrost := true }, defrostSet := insertFin e l.defrostSet } else l)
    evapRestart lkp_evapRestart (fun e y t h => by simp only [evap_evapRestart, if_neg h]) _ _ (List.nodup_finRange 12), fold,
    foldl_flag, show (stopFrost s).lkp = s.lkp from rfl, foldl_insertFin _ _ _ (finRange_ascending 12) (by rw [h]; simp), h,
    List.nil_append]
  simp only [evap_stopFrost]
theorem dfcOnly_dfcWarmRestart (s : State) : DfcOnly s (dfcWarmRestart s) := by
  have h : DfcOnly s (stopFrost s) := ⟨rfl, rfl⟩
  unfold dfcWarmRestart; exact dfcOnly_trans h (dfcOnly_forEach evapRestart dfcOnly_evapRestart _ _)
theorem frostDue_dfcWarmRestart (s : State) : (dfcWarmRestart s).dfc.frostDue = none := by
  unfold dfcWarmRestart
  exact frame_forEach (·.dfc.frostDue) evapRestart (fun e t => by unfold evapRestart; split <;> rfl) _ (stopFrost s)

/-! ## TSU (R105, R109, R110, R120) -/

/-- A probe after mode silence has no valid reading. -/
theorem valid_silence (x : Probe) : (silence x).valid = false := by
  unfold silence Probe.valid; split <;> simp_all

theorem tsuOnly_deriveRoom (r : Fin 8) (s : State) : TsuOnly s (deriveRoom r s) := by
  have h := tsuOnly_forEach (fun p t => t.updProbe p fun x => { x with counted := x.counts (s.coilsHot r) }) (fun _ _ => rfl)
    (roomProbes r) s
  exact tsuOnly_trans h rfl
theorem alt_lkp_deriveRoom (r : Fin 8) (s : State) : (deriveRoom r s).alt = s.alt ∧ (deriveRoom r s).lkp = s.lkp := by
  have h := frame_forEach (fun t => (t.alt, t.lkp)) (fun p t => t.updProbe p fun x => { x with counted := x.counts (s.coilsHot r) })
    (fun _ _ => rfl) (roomProbes r) s
  exact ⟨congrArg Prod.fst h, congrArg Prod.snd h⟩
theorem nodup_roomProbes (r : Fin 8) : (roomProbes r).Nodup := by revert r; decide
theorem mem_roomProbes (p : Fin 32) (r : Fin 8) : p ∈ roomProbes r ↔ r = probeRoom p := by revert p r; decide +kernel
/-- A derivation writes the counted flags of the room's probes. -/
theorem probe_deriveRoom (r : Fin 8) (p : Fin 32) (s : State) : (deriveRoom r s).probe p =
    if probeRoom p = r then { s.probe p with counted := (s.probe p).counts (s.coilsHot r) } else s.probe p := by
  have h := acc_forEach (fun t => t.probe p) (fun q t => { t.probe q with counted := (t.probe q).counts (s.coilsHot r) })
    (fun q x a => if p = q then x else a) (fun q t => t.updProbe q fun x => { x with counted := x.counts (s.coilsHot r) })
    (fun q t => probe_updProbe t q p _) (fun q y t h => by simp only [probe_updProbe, if_neg h]) (roomProbes r) s
    (nodup_roomProbes r)
  refine Eq.trans h ?_
  by_cases hp : probeRoom p = r
  · rw [if_pos hp]; exact foldl_point p _ _ _ ((mem_roomProbes p r).2 hp.symm) (nodup_roomProbes r)
  · rw [if_neg hp]; exact foldl_other p _ _ _ fun h => hp ((mem_roomProbes p r).1 h).symm
/-- A derivation of a room none of whose probes has a valid reading leaves its temperature unknown. -/
theorem thermal_deriveRoom_silent (r q : Fin 8) (s : State) (h : ∀ p, (s.probe p).valid = false) : (deriveRoom r s).thermal q =
    if q = r then { s.thermal r with known := false, coilExcluded := s.coilsHot r } else s.thermal q := by
  have none : ((roomProbes r).filter fun p => (s.probe p).counts (s.coilsHot r)) = [] := by
    rw [List.filter_eq_nil_iff]; intro p _; simp [Probe.counts, h p]
  have kept : (s.forEach (roomProbes r) fun p t => t.updProbe p fun x => { x with counted := x.counts (s.coilsHot r) }).thermal q
      = s.thermal q :=
    frame_forEach (fun t => t.thermal q) (fun p t => t.updProbe p fun x => { x with counted := x.counts (s.coilsHot r) })
      (fun _ _ => rfl) _ _
  unfold deriveRoom
  dsimp only
  rw [thermal_updThermal, none]
  split
  · rename_i hq; subst hq; rw [kept]; rfl
  · exact kept

/-- Whether a room's coils are hot is read from DFC's record alone. -/
theorem coilsHot_congr {s t : State} (h : s.dfc = t.dfc) (q : Fin 8) : s.coilsHot q = t.coilsHot q := by
  unfold State.coilsHot State.evap; rw [h]
theorem dfc_of_tsuOnly {a b : State} (h : TsuOnly a b) : b.dfc = a.dfc := by
  unfold TsuOnly at h; rw [h]; rfl
theorem coilsHot_deriveRoom (r q : Fin 8) (s : State) : (deriveRoom r s).coilsHot q = s.coilsHot q :=
  coilsHot_congr (dfc_of_tsuOnly (tsuOnly_deriveRoom r s)) q

/-- Deriving some rooms where no probe has a valid reading. -/
theorem derive_silent (xs : List (Fin 8)) (s : State) (h : ∀ p, (s.probe p).valid = false) :
    (∀ p, (s.forEach xs deriveRoom).probe p =
      if probeRoom p ∈ xs then { s.probe p with counted := false } else s.probe p)
    ∧ (∀ q, (s.forEach xs deriveRoom).thermal q =
      if q ∈ xs then { s.thermal q with known := false, coilExcluded := s.coilsHot q } else s.thermal q) := by
  induction xs generalizing s with
  | nil => exact ⟨fun _ => rfl, fun _ => rfl⟩
  | cons r xs ih =>
    have hp (p : Fin 32) : (deriveRoom r s).probe p = if probeRoom p = r then { s.probe p with counted := false } else s.probe p := by
      rw [probe_deriveRoom]; simp [Probe.counts, h p]
    have valid (p : Fin 32) : ((deriveRoom r s).probe p).valid = false := by
      rw [hp]; split
      · exact h p
      · exact h p
    have k := ih (deriveRoom r s) valid
    rw [forEach_cons]
    refine ⟨fun p => ?_, fun q => ?_⟩
    · rw [k.1, hp]; simp only [List.mem_cons]
      by_cases h1 : probeRoom p = r <;> by_cases h2 : probeRoom p ∈ xs <;> simp [h1, h2]
    · rw [k.2, thermal_deriveRoom_silent r q s h, coilsHot_deriveRoom]; simp only [List.mem_cons]
      by_cases h1 : q = r <;> by_cases h2 : q ∈ xs <;> simp [h1, h2]
theorem tsuOnly_modeSilence (s : State) : TsuOnly s (modeSilence s) := by
  have h : TsuOnly s (s.withTsu { s.tsu with probes := s.tsu.probes.map silence }) := rfl
  unfold modeSilence; exact tsuOnly_trans h (tsuOnly_forEach _ tsuOnly_deriveRoom _ _)
theorem accrual_modeSilence (s : State) :
    (modeSilence s).tsu.lastAccrual = s.tsu.lastAccrual ∧ (modeSilence s).tsu.accrualDue = s.tsu.accrualDue := by
  have one (r : Fin 8) (t : State) : ((deriveRoom r t).tsu.lastAccrual, (deriveRoom r t).tsu.accrualDue)
      = (t.tsu.lastAccrual, t.tsu.accrualDue) := by
    have h := frame_forEach (fun t => (t.tsu.lastAccrual, t.tsu.accrualDue))
      (fun p v => v.updProbe p fun x => { x with counted := x.counts (t.coilsHot r) }) (fun _ _ => rfl) (roomProbes r) t
    exact h
  unfold modeSilence; generalize List.finRange 8 = xs
  have h := frame_forEach (fun t => (t.tsu.lastAccrual, t.tsu.accrualDue)) deriveRoom one xs
    (s.withTsu { s.tsu with probes := s.tsu.probes.map silence })
  exact ⟨(congrArg Prod.fst h).trans rfl, (congrArg Prod.snd h).trans rfl⟩
theorem alt_lkp_modeSilence (s : State) : (modeSilence s).alt = s.alt ∧ (modeSilence s).lkp = s.lkp := by
  unfold modeSilence; generalize List.finRange 8 = xs
  exact ⟨(frame_forEach (·.alt) deriveRoom (fun r t => (alt_lkp_deriveRoom r t).1) xs _).trans rfl,
    (frame_forEach (·.lkp) deriveRoom (fun r t => (alt_lkp_deriveRoom r t).2) xs _).trans rfl⟩
/-- R105: mode silence, its derivations included. -/
theorem probe_thermal_modeSilence (s : State) :
    (∀ p, (modeSilence s).probe p = { silence (s.probe p) with counted := false })
    ∧ ∀ r, (modeSilence s).thermal r = { s.thermal r with known := false, coilExcluded := s.coilsHot r } := by
  have silenced (p : Fin 32) : (s.withTsu { s.tsu with probes := s.tsu.probes.map silence }).probe p = silence (s.probe p) :=
    Vector.getElem_map ..
  have k := derive_silent (List.finRange 8) (s.withTsu { s.tsu with probes := s.tsu.probes.map silence })
    fun p => by rw [silenced]; exact valid_silence _
  exact ⟨fun p => by rw [modeSilence, k.1, if_pos (List.mem_finRange _), silenced],
    fun r => by rw [modeSilence, k.2, if_pos (List.mem_finRange _)]; rfl⟩

/-- R110: the record of a room that is not watched. -/
def RoomThermal.unwatched (x : RoomThermal) : RoomThermal :=
  { x with
    state := .unwatched, warmSince := none, staleSince := none, staleRaised := false, graceEnd := none, maskEnd := none
    staleDue := none }
theorem evaluateRoom_unwatched (r : Fin 8) (s : State) (h : s.watched r = false) :
    TsuOnly s (evaluateRoom r s)
    ∧ (∀ q, (evaluateRoom r s).thermal q = if q = r then (s.thermal r).unwatched else s.thermal q)
    ∧ (evaluateRoom r s).tsu = { s.tsu with rooms := (evaluateRoom r s).tsu.rooms }
    ∧ (evaluateRoom r s).alt =
      (if s.kind r = .unused then (s.alt.clear .roomWarm (.room r)).clear .roomStale (.room r) else s.alt)
    ∧ (evaluateRoom r s).lkp =
      (if (s.thermal r).state ≠ .unwatched then
        { s.lkp with pendingCauses := { s.lkp.pendingCauses with room := true }, roomSet := insertFin r s.lkp.roomSet }
      else s.lkp) := by
  let t := if s.kind r = .unused then
      clearAlarm .roomStale (.room r) (clearAlarm .roomWarm (.room r) (s.updThermal r unwatch)) else s.updThermal r unwatch
  let u := t.updThermal r (setDeadlines s.now)
  have e : evaluateRoom r s = noteThermalChange r (s.thermal r).state u := by unfold evaluateRoom; simp only [h]; rfl
  have ht (q : Fin 8) : t.thermal q = if q = r then unwatch (s.thermal r) else s.thermal q := by
    refine Eq.trans ?_ (thermal_updThermal s r q unwatch); simp only [t]; split <;> rfl
  have hu (q : Fin 8) : u.thermal q = if q = r then (s.thermal r).unwatched else s.thermal q := by
    simp only [u, thermal_updThermal, ht, if_true]; split <;> rfl
  have hs : (u.thermal r).state = .unwatched := by rw [hu, if_pos rfl]; rfl
  have hn : (noteThermalChange r (s.thermal r).state u) = if (s.thermal r).state ≠ .unwatched then setRoomCause r u else u := by
    unfold noteThermalChange; rw [hs]; split <;> simp_all
  have ut : TsuOnly s u ∧ u.tsu = { s.tsu with rooms := u.tsu.rooms } ∧ u.lkp = s.lkp ∧ u.alt =
      if s.kind r = .unused then (s.alt.clear .roomWarm (.room r)).clear .roomStale (.room r) else s.alt := by
    simp only [u, t]; split <;> exact ⟨rfl, rfl, rfl, rfl⟩
  rw [e, hn]
  split
  · exact ⟨tsuOnly_trans ut.1 rfl, hu, ut.2.1, ut.2.2.2, by rw [← ut.2.2.1]; rfl⟩
  · exact ⟨ut.1, hu, ut.2.1, ut.2.2.2, ut.2.2.1⟩

/-- R110 in a mode in which no room is watched: every room is evaluated. -/
theorem evaluateAll_standby (s : State) (h : s.mode = .standby) (hr : s.lkp.roomSet = []) :
    TsuOnly s (evaluateAll s) ∧ (∀ r, (evaluateAll s).thermal r = (s.thermal r).unwatched)
    ∧ (evaluateAll s).tsu = { s.tsu with rooms := (evaluateAll s).tsu.rooms }
    ∧ (evaluateAll s).alt = ((List.finRange 8).filter fun r => s.kind r = .unused).foldl
      (fun a r => (a.clear .roomWarm (.room r)).clear .roomStale (.room r)) s.alt
    ∧ (evaluateAll s).lkp =
      { s.lkp with
        pendingCauses :=
          { s.lkp.pendingCauses with
            room := s.lkp.pendingCauses.room || (List.finRange 8).any fun r => decide ((s.thermal r).state ≠ .unwatched) }
        roomSet := (List.finRange 8).filter fun r => decide ((s.thermal r).state ≠ .unwatched) } := by
  let P (t : State) : Prop := t.mode = .standby
  have watched (r : Fin 8) (t : State) (ht : P t) : t.watched r = false := by
    simp only [P] at ht; simp [State.watched, ht]
  have one (r : Fin 8) (t : State) (ht : P t) := evaluateRoom_unwatched r t (watched r t ht)
  have keeps (r : Fin 8) (t : State) (ht : P t) : P (evaluateRoom r t) :=
    ((congrArg State.mode (one r t ht).1).trans rfl : (evaluateRoom r t).mode = t.mode).trans ht
  have kind (r q : Fin 8) (t : State) (ht : P t) : (evaluateRoom r t).kind q = t.kind q :=
    (congrArg (State.kind · q) (one r t ht).1).trans rfl
  have only : ∀ (xs : List (Fin 8)) (t : State), P t → TsuOnly t (t.forEach xs evaluateRoom)
      ∧ (t.forEach xs evaluateRoom).tsu = { t.tsu with rooms := (t.forEach xs evaluateRoom).tsu.rooms } := by
    intro xs
    induction xs with
    | nil => exact fun t _ => ⟨rfl, rfl⟩
    | cons r xs ih =>
      intro t ht
      have k := ih _ (keeps r t ht)
      exact ⟨tsuOnly_trans (one r t ht).1 k.1,
        k.2.trans ((congrArg (fun x : Tsu => { x with rooms := ((evaluateRoom r t).forEach xs evaluateRoom).tsu.rooms })
          (one r t ht).2.2.1).trans rfl)⟩
  have fold (xs : List (Fin 8)) (l : Lkp) (p : Fin 8 → Bool) :
      xs.foldl (fun (l : Lkp) r => if p r then
        { l with pendingCauses := { l.pendingCauses with room := true }, roomSet := insertFin r l.roomSet } else l) l
      = { l with
          pendingCauses := { l.pendingCauses with room := xs.foldl (fun b x => if p x then true else b) l.pendingCauses.room }
          roomSet := xs.foldl (fun l x => if p x then insertFin x l else l) l.roomSet } := by
    induction xs generalizing l with
    | nil => rfl
    | cons x xs ih => simp only [List.foldl_cons, ih]; cases p x <;> rfl
  unfold evaluateAll
  refine ⟨(only _ s h).1, fun r => ?_, (only _ s h).2, ?_, ?_⟩
  · rw [acc_forEach_on P (fun t => t.thermal r) (fun q t => (t.thermal q).unwatched) (fun q x a => if r = q then x else a)
      evaluateRoom keeps (fun q t ht => (one q t ht).2.1 r) (fun q y t e ht => by simp only [(one q t ht).2.1, if_neg e]) _ s h
      (List.nodup_finRange 8)]
    exact foldl_point r (fun q => (s.thermal q).unwatched) _ _ (List.mem_finRange r) (List.nodup_finRange 8)
  · rw [acc_forEach_on P (·.alt) (fun q t => decide (t.kind q = .unused))
      (fun q p a => if p then (a.clear .roomWarm (.room q)).clear .roomStale (.room q) else a)
      evaluateRoom keeps (fun q t ht => by rw [(one q t ht).2.2.2.1]; simp) (fun q y t e ht => by rw [kind q y t ht]) _ s h
      (List.nodup_finRange 8), List.foldl_filter]
  · rw [acc_forEach_on P (·.lkp) (fun q t => decide ((t.thermal q).state ≠ .unwatched))
      (fun q p l => if p then
        { l with pendingCauses := { l.pendingCauses with room := true }, roomSet := insertFin q l.roomSet } else l)
      evaluateRoom keeps (fun q t ht => by rw [(one q t ht).2.2.2.2]; simp only [decide_eq_true_eq])
      (fun q y t e ht => by simp only [(one q t ht).2.1, if_neg e]) _ s h (List.nodup_finRange 8), fold, foldl_flag,
      foldl_insertFin _ _ _ (finRange_ascending 8) (by rw [hr]; simp), hr, List.nil_append]

/-! ## MDS (R76) and the whole restart -/

theorem sget_map {α : Type} (d : α) (f : α → α) (hd : f d = d) (m : List (Nat × α)) (k : Nat) :
    sget d (m.map fun (i, e) => (i, f e)) k = f (sget d m k) := by
  induction m with
  | nil => exact hd.symm
  | cons x m ih => simp only [List.map_cons, sget, ih]; split <;> rfl

/-- R76: MDS's part of the restart. -/
theorem mds_mdsWarmRestart (s : State) :
    (∀ i, (mdsWarmRestart s).orderEntry i = { s.orderEntry i with rec? := (s.orderEntry i).rec?.map orderRestart })
    ∧ (∀ k, (mdsWarmRestart s).terminal k = terminalRestart (s.terminal k)) :=
  ⟨fun i => sget_map (α := OrderEntry) {} (fun e => { e with rec? := e.rec?.map orderRestart }) rfl s.mds.entries i,
    fun _ => Vector.getElem_map ..⟩

/-- A room has no coil in HEAT or DRIP once the evaporators in those phases are in FAULT (R144). -/
theorem coilsHot_dfcWarmRestart (s : State) (r : Fin 8) : (dfcWarmRestart s).coilsHot r = false := by
  simp only [State.coilsHot, List.any_eq_false, evap_dfcWarmRestart]
  intro e _
  cases (s.evap e).phase <;> simp [Phase.restarts]

/-- The blocks from DKC on, after a state `m` in STANDBY whose changed sets are empty. -/
theorem restart_owners (m : State) (mode : m.mode = .standby) (hd : m.lkp.doorSet = []) (he : m.lkp.defrostSet = [])
    (hr : m.lkp.roomSet = []) :
    let u := tsuWarmRestart (dfcWarmRestart (dkcWarmRestart m))
    u = ((((((m.withDkc u.dkc).withTsu u.tsu).withDfc u.dfc).withAlt u.alt).withLkp u.lkp).withLpl (dkcWarmRestart m).lpl)
    ∧ (∀ d, u.door d = (m.door d).restarted m.now) ∧ u.dkc.holds = m.dkc.holds
    ∧ (∀ e, u.evap e = if (m.evap e).phase.restarts then
        { m.evap e with phase := .fault, phaseSince := m.now, deadline := none, deferralDue := none }
      else { m.evap e with deferralDue := none })
    ∧ u.dfc.allowance = m.dfc.allowance ∧ u.dfc.frostDue = none
    ∧ (∀ p, u.probe p = { silence (m.probe p) with counted := false })
    ∧ (∀ r, u.thermal r = { (m.thermal r).unwatched with known := false, coilExcluded := false })
    ∧ u.tsu.lastAccrual = m.tsu.lastAccrual ∧ u.tsu.accrualDue = none
    ∧ u.alt = ((List.finRange 8).filter fun r => m.kind r = .unused).foldl
      (fun a r => (a.clear .roomWarm (.room r)).clear .roomStale (.room r))
      (((List.finRange 24).filter fun d => (m.door d).restarts && (m.door d).state = .opened).foldl
        (fun a d => a.clear .doorOpenLong (.door d)) m.alt)
    ∧ u.lkp =
      { m.lkp with
        pendingCauses :=
          { m.lkp.pendingCauses with
            door := m.lkp.pendingCauses.door || (List.finRange 24).any fun d => (m.door d).restarts
            defrost := m.lkp.pendingCauses.defrost || (List.finRange 12).any fun e => (m.evap e).phase.restarts
            room := m.lkp.pendingCauses.room || (List.finRange 8).any fun r => decide ((m.thermal r).state ≠ .unwatched) }
        doorSet := (List.finRange 24).filter fun d => (m.door d).restarts
        defrostSet := (List.finRange 12).filter fun e => (m.evap e).phase.restarts
        roomSet := (List.finRange 8).filter fun r => decide ((m.thermal r).state ≠ .unwatched) } := by
  have hk := dkcOnly_dkcWarmRestart m
  have lkpK := lkp_dkcWarmRestart m hd
  have altK := alt_dkcWarmRestart m
  have doorK := door_dkcWarmRestart m
  have holdsK := holds_dkcWarmRestart m
  revert hk lkpK altK doorK holdsK
  generalize dkcWarmRestart m = k
  intro hk lkpK altK doorK holdsK
  have evapK (e : Fin 12) : k.evap e = m.evap e := (congrArg (State.evap · e) hk).trans rfl
  have nowK : k.now = m.now := (congrArg State.now hk).trans rfl
  have tsuK : k.tsu = m.tsu := (congrArg State.tsu hk).trans rfl
  have hf := dfcOnly_dfcWarmRestart k
  have lkpF := lkp_dfcWarmRestart k (by rw [lkpK]; exact he)
  have evapF := evap_dfcWarmRestart k
  have frostF := frostDue_dfcWarmRestart k
  have hotF := coilsHot_dfcWarmRestart k
  revert hf lkpF evapF frostF hotF
  generalize dfcWarmRestart k = f
  intro hf lkpF evapF frostF hotF
  have tsuF : f.tsu = m.tsu := ((congrArg State.tsu hf.1).trans rfl).trans tsuK
  have altF : f.alt = k.alt := (congrArg State.alt hf.1).trans rfl
  have ha : TsuOnly f (stopAccrual f) := rfl
  have ht := tsuOnly_trans ha (tsuOnly_modeSilence (stopAccrual f))
  have lkpT : (modeSilence (stopAccrual f)).lkp = f.lkp := (alt_lkp_modeSilence (stopAccrual f)).2
  have altT : (modeSilence (stopAccrual f)).alt = f.alt := (alt_lkp_modeSilence (stopAccrual f)).1
  have silent := probe_thermal_modeSilence (stopAccrual f)
  have accrual := accrual_modeSilence (stopAccrual f)
  unfold tsuWarmRestart
  revert ht lkpT altT silent accrual
  generalize modeSilence (stopAccrual f) = t
  intro ht lkpT altT silent accrual
  have modeT : t.mode = .standby :=
    ((congrArg State.mode ht).trans rfl).trans (((congrArg State.mode hf.1).trans rfl).trans
      (((congrArg State.mode hk).trans rfl).trans mode))
  have all := evaluateAll_standby t modeT (by rw [lkpT, lkpF, lkpK]; exact hr)
  have kindT (r : Fin 8) : t.kind r = m.kind r :=
    ((congrArg (State.kind · r) ht).trans rfl).trans (((congrArg (State.kind · r) hf.1).trans rfl).trans
      ((congrArg (State.kind · r) hk).trans rfl))
  have thermalT (r : Fin 8) : t.thermal r = { m.thermal r with known := false, coilExcluded := false } := by
    rw [silent.2]
    have h1 : (stopAccrual f).thermal r = m.thermal r := (rfl : _ = f.tsu.rooms.get r).trans (congrArg (fun x : Tsu => x.rooms.get r) tsuF)
    have h2 : (stopAccrual f).coilsHot r = false := hotF r
    rw [h1, h2]
  have stateT (r : Fin 8) : (t.thermal r).state = (m.thermal r).state := by rw [thermalT]
  have probeT (p : Fin 32) : t.probe p = { silence (m.probe p) with counted := false } := by
    rw [silent.1]
    have h1 : (stopAccrual f).probe p = m.probe p := (rfl : _ = f.tsu.probes.get p).trans (congrArg (fun x : Tsu => x.probes.get p) tsuF)
    rw [h1]
  revert all
  generalize evaluateAll t = u
  intro all
  obtain ⟨hu, thermalU, tsuU, altU, lkpU⟩ := all
  have dkcU : u.dkc = k.dkc := ((congrArg State.dkc hu).trans rfl).trans (((congrArg State.dkc ht).trans rfl).trans
    ((congrArg State.dkc hf.1).trans rfl))
  have dfcU : u.dfc = f.dfc := ((congrArg State.dfc hu).trans rfl).trans ((congrArg State.dfc ht).trans rfl)
  refine ⟨?_, fun d => ?_, ?_, fun e => ?_, ?_, ?_, fun p => ?_, fun r => ?_, ?_, ?_, ?_, ?_⟩
  · have h1 : u = (((t.withTsu u.tsu).withAlt u.alt).withLkp u.lkp) := hu
    have h2 : t = (((f.withTsu t.tsu).withAlt t.alt).withLkp t.lkp) := ht
    have h3 : f = (k.withDfc f.dfc).withLkp f.lkp := hf.1
    have h4 : k = (((m.withDkc k.dkc).withAlt k.alt).withLkp k.lkp).withLpl k.lpl := hk
    rw [dkcU, dfcU]
    refine h1.trans ?_
    refine (congrArg (fun x : State => ((x.withTsu u.tsu).withAlt u.alt).withLkp u.lkp) h2).trans ?_
    refine (congrArg (fun x : State => ((x.withTsu u.tsu).withAlt u.alt).withLkp u.lkp) h3).trans ?_
    exact (congrArg (fun x : State => (((x.withDfc f.dfc).withTsu u.tsu).withAlt u.alt).withLkp u.lkp) h4).trans rfl
  · rw [← doorK]; unfold State.door; rw [dkcU]
  · rw [dkcU, holdsK]
  · have h1 : u.evap e = f.evap e := congrArg (fun x : Dfc => x.evaps.get e) dfcU
    rw [h1, evapF, evapK, nowK]
  · rw [dfcU, hf.2]; exact (congrArg (fun x : State => x.dfc.allowance) hk).trans rfl
  · rw [dfcU, frostF]
  · rw [← probeT]; unfold State.probe; rw [tsuU]
  · rw [thermalU, thermalT]; rfl
  · rw [tsuU]; exact (accrual.1.trans (rfl : _ = f.tsu.lastAccrual)).trans (congrArg Tsu.lastAccrual tsuF)
  · rw [tsuU]; exact accrual.2
  · rw [altU, altT, altF, altK]; simp only [kindT]
  · rw [lkpU, lkpT, lkpF, lkpK]; simp only [stateT, evapK]

/-- What a warm restart leaves, block by block, before the supply lines are sampled (R187). -/
theorem warmRestartBlocks_parts (s : State) :
    let u := warmRestartBlocks s
    u.pdr = s.pdr ∧ u.ctb = s.ctb ∧ u.moc = (mocWarmRestart s).moc
    ∧ (u.timeBase, u.freeDraws, u.pending) = (s.timeBase, s.freeDraws, s.pending)
    ∧ (∀ i, u.orderEntry i = { s.orderEntry i with rec? := (s.orderEntry i).rec?.map orderRestart })
    ∧ (∀ k, u.terminal k = terminalRestart (s.terminal k))
    ∧ u.mds.finished = s.mds.finished ∧ u.mds.nextSeq = s.mds.nextSeq ∧ u.mds.retryDue = none
    ∧ (∀ d, u.door d = (s.door d).restarted s.now) ∧ u.dkc.holds = s.dkc.holds
    ∧ (∀ e, u.evap e = if (s.evap e).phase.restarts then
        { s.evap e with phase := .fault, phaseSince := s.now, deadline := none, deferralDue := none }
      else { s.evap e with deferralDue := none })
    ∧ u.dfc.allowance = s.dfc.allowance ∧ u.dfc.frostDue = none
    ∧ (∀ p, u.probe p = { silence (s.probe p) with counted := false })
    ∧ (∀ r, u.thermal r = { (s.thermal r).unwatched with known := false, coilExcluded := false })
    ∧ u.tsu.lastAccrual = s.tsu.lastAccrual ∧ u.tsu.accrualDue = none
    ∧ u.alt = ((List.finRange 8).filter fun r => s.kind r = .unused).foldl
      (fun a r => (a.clear .roomWarm (.room r)).clear .roomStale (.room r))
      (((List.finRange 24).filter fun d => (s.door d).restarts && (s.door d).state = .opened).foldl
        (fun a d => a.clear .doorOpenLong (.door d)) s.alt)
    ∧ u.lkp =
      { Lkp.coldStart with
        reasons := { warmRestart := true }
        pendingCauses :=
          { link := true
            door := (List.finRange 24).any fun d => (s.door d).restarts
            defrost := (List.finRange 12).any fun e => (s.evap e).phase.restarts
            room := (List.finRange 8).any fun r => decide ((s.thermal r).state ≠ .unwatched) }
        doorSet := (List.finRange 24).filter fun d => (s.door d).restarts
        defrostSet := (List.finRange 12).filter fun e => (s.evap e).phase.restarts
        roomSet := (List.finRange 8).filter fun r => decide ((s.thermal r).state ≠ .unwatched) } := by
  obtain ⟨m, hm⟩ : ∃ m, m = mdsWarmRestart (mocWarmRestart (lplWarmRestart (lkpWarmRestart s))) := ⟨_, rfl⟩
  have same : m.pdr = s.pdr ∧ m.ctb = s.ctb ∧ m.dkc = s.dkc ∧ m.tsu = s.tsu ∧ m.dfc = s.dfc ∧ m.alt = s.alt
      ∧ m.moc = (mocWarmRestart s).moc ∧ (m.timeBase, m.freeDraws, m.pending) = (s.timeBase, s.freeDraws, s.pending)
      ∧ m.mds.finished = s.mds.finished ∧ m.mds.nextSeq = s.mds.nextSeq ∧ m.mds.retryDue = none
      ∧ m.lkp = { Lkp.coldStart with reasons := { warmRestart := true } } := by
    rw [hm]; exact ⟨rfl, rfl, rfl, rfl, rfl, rfl, rfl, rfl, rfl, rfl, rfl, rfl⟩
  have table : (∀ i, m.orderEntry i = { s.orderEntry i with rec? := (s.orderEntry i).rec?.map orderRestart })
      ∧ ∀ k, m.terminal k = terminalRestart (s.terminal k) := by
    rw [hm]; exact mds_mdsWarmRestart (mocWarmRestart (lplWarmRestart (lkpWarmRestart s)))
  obtain ⟨pdr, ctb, dkc, tsu, dfc, alt, moc, others, finished, nextSeq, retryDue, lkp⟩ := same
  have door (d : Fin 24) : m.door d = s.door d := by unfold State.door; rw [dkc]
  have evap (e : Fin 12) : m.evap e = s.evap e := by unfold State.evap; rw [dfc]
  have probe (p : Fin 32) : m.probe p = s.probe p := by unfold State.probe; rw [tsu]
  have thermal (r : Fin 8) : m.thermal r = s.thermal r := by unfold State.thermal; rw [tsu]
  have kind (r : Fin 8) : m.kind r = s.kind r := by unfold State.kind; rw [pdr]
  have now : m.now = s.now := (congrArg Moc.clock moc).trans rfl
  have h := restart_owners m (congrArg Moc.mode moc) (by rw [lkp]; rfl) (by rw [lkp]; rfl) (by rw [lkp]; rfl)
  unfold warmRestartBlocks
  rw [← hm]
  revert h
  generalize tsuWarmRestart (dfcWarmRestart (dkcWarmRestart m)) = u
  intro h
  obtain ⟨hu, rest⟩ := h
  have mds : u.mds = m.mds := (congrArg State.mds hu).trans rfl
  simp only [door, evap, probe, thermal, kind, now, dkc, tsu, dfc, alt, lkp] at rest
  refine ⟨((congrArg State.pdr hu).trans rfl).trans pdr, ((congrArg State.ctb hu).trans rfl).trans ctb,
    ((congrArg State.moc hu).trans rfl).trans moc,
    ((congrArg (fun x : State => (x.timeBase, x.freeDraws, x.pending)) hu).trans rfl).trans others,
    fun i => (show u.orderEntry i = m.orderEntry i by unfold State.orderEntry; rw [mds]).trans (table.1 i),
    fun k => (show u.terminal k = m.terminal k by unfold State.terminal; rw [mds]).trans (table.2 k), by rw [mds, finished], by rw [mds, nextSeq],
    by rw [mds, retryDue], ?_⟩
  obtain ⟨r1, r2, r3, r4, r5, r6, r7, r8, r9, r10, r11⟩ := rest
  exact ⟨r1, r2, r3, r4, r5, r6, r7, r8, r9, r10, by rw [r11]; rfl⟩
/-- Every lane is stopped after a warm restart (R170). -/
theorem lanes_warmRestartBlocks (s : State) : (warmRestartBlocks s).lpl.lanes = Vector.replicate 4 {} := by
  obtain ⟨m, hm⟩ : ∃ m, m = mdsWarmRestart (mocWarmRestart (lplWarmRestart (lkpWarmRestart s))) := ⟨_, rfl⟩
  have h := restart_owners m (by rw [hm]; rfl) (by rw [hm]; rfl) (by rw [hm]; rfl) (by rw [hm]; rfl)
  have one (d : Fin 24) (t : State) : (doorRestart d t).lpl.lanes = t.lpl.lanes := by
    unfold doorRestart; dsimp only; repeat' split
    all_goals rfl
  have lanes : (dkcWarmRestart m).lpl.lanes = m.lpl.lanes := by
    unfold dkcWarmRestart; exact frame_forEach (·.lpl.lanes) doorRestart one _ m
  have stopped : m.lpl.lanes = Vector.replicate 4 {} := by rw [hm]; rfl
  unfold warmRestartBlocks
  rw [← hm, ← stopped, ← lanes]
  revert h
  generalize dkcWarmRestart m = k
  generalize tsuWarmRestart (dfcWarmRestart k) = u
  exact fun h => (congrArg (fun x : State => x.lpl.lanes) h.1).trans rfl
/-- Links and command slots after a warm restart (R102, R170): LPL empties every slot, then DKC places STOP for each door in
service. -/
theorem station_warmRestartBlocks (s : State) (st : StationId) : (warmRestartBlocks s).station st =
    { link := if (s.station st).link = .heard then .unconfirmed else (s.station st).link
      missed := 0, seqNo := (s.station st).seqNo, slotSent := false
      slot := match st with
        | .door d => if (s.door d).inService = true then some (.door .stop) else none
        | _ => none } := by
  obtain ⟨m, hm⟩ : ∃ m, m = mdsWarmRestart (mocWarmRestart (lplWarmRestart (lkpWarmRestart s))) := ⟨_, rfl⟩
  have h := restart_owners m (by rw [hm]; rfl) (by rw [hm]; rfl) (by rw [hm]; rfl) (by rw [hm]; rfl)
  have emptied : m.station st = (s.station st).restarted := by rw [hm]; exact Vector.getElem_map ..
  have door (d : Fin 24) : m.door d = s.door d := by rw [hm]; rfl
  have lpl : (warmRestartBlocks s).lpl = (dkcWarmRestart m).lpl := by
    unfold warmRestartBlocks; rw [← hm]
    revert h
    generalize dkcWarmRestart m = k
    generalize tsuWarmRestart (dfcWarmRestart k) = u
    exact fun h => (congrArg State.lpl h.1).trans rfl
  have placed : (warmRestartBlocks s).station st = (dkcWarmRestart m).station st := by
    unfold State.station; rw [lpl]
  rw [placed, station_dkcWarmRestart, emptied]
  simp only [door]
  cases st <;> simp [Station.restarted]
  split <;> rfl

end Sys2Proof.Machine
end

