-- ==== Sys2Proof/Laws/Thermal.lean ====
section
/-! SUPPORT. What the evaluation of a watched room does (R110 to R112): its claims, then its record, then the ROOM cause. The evaluation of
a room that is not watched is in Laws/Restart.lean. -/

namespace Sys2Proof.Machine

/-- R112: the evaluation raises ROOM_STALE. -/
def RoomThermal.late (now : Time) (x : RoomThermal) : Bool :=
  !x.known && !x.staleRaised && decide (x.staleSince.getD now + Config.staleTime ≤ now)

/-- R111, R112: the record after the evaluation of a watched room. -/
def RoomThermal.judged (now : Time) (x : RoomThermal) : RoomThermal :=
  setDeadlines now (if x.late now then { evaluated now x with staleRaised := true } else evaluated now x)

/-- The stale alarm of a room whose record has just been written. -/
theorem staleAlarm_updThermal (r : Fin 8) (s : State) (a : RoomThermal) :
    staleAlarm r (s.updThermal r fun _ => a) =
      if a.state = .stale ∧ a.staleRaised = false ∧ ∃ t, a.staleSince = some t ∧ t + Config.staleTime ≤ s.now then
        (raiseAlarm .roomStale (.room r) none s).updThermal r fun _ => { a with staleRaised := true }
      else s.updThermal r fun _ => a := by
  have own : (s.updThermal r fun _ => a).thermal r = a := by rw [thermal_updThermal, if_pos rfl]
  have twice : (s.updThermal r fun _ => a).updThermal r (fun x => { x with staleRaised := true })
      = s.updThermal r fun _ => { a with staleRaised := true } := updThermal_updThermal ..
  unfold staleAlarm
  simp only [own]
  cases hs : a.state
  case stale =>
    cases ht : a.staleSince with
    | none => simp
    | some t =>
      cases hr : a.staleRaised
      · by_cases hl : t + Config.staleTime ≤ s.now
        · have hu : t + Config.staleTime ≤ (s.updThermal r fun _ => a).now := hl
          simp only [hu, if_true]
          rw [if_pos ⟨trivial, trivial, t, rfl, hl⟩, twice]
          simp only [hs, ht]
          rfl
        · have hu : ¬t + Config.staleTime ≤ (s.updThermal r fun _ => a).now := hl
          simp only [hu, if_false]
          rw [if_neg]
          rintro ⟨_, _, u, hu, hl'⟩
          cases hu; exact hl hl'
      · simp
  all_goals simp

/-- The state after the evaluation of a watched room: its claims, its record, and the ROOM cause where its state changed. -/
theorem evaluateRoom_watched (r : Fin 8) (s : State) (h : s.watched r = true) : evaluateRoom r s =
    noteThermalChange r (s.thermal r).state
      ((if (s.thermal r).late s.now then raiseAlarm .roomStale (.room r) none s
        else evaluationAlarms r (s.thermal r) (evaluated s.now (s.thermal r)) s).updThermal r fun _ => (s.thermal r).judged s.now) := by
  obtain ⟨x, hx⟩ : ∃ x, x = s.thermal r := ⟨_, rfl⟩
  unfold evaluateRoom
  simp only [h, if_true, ← hx]
  congr 1
  obtain ⟨a, ha⟩ : ∃ a, a = evaluated s.now x := ⟨_, rfl⟩
  have claims : evaluationAlarms r x a (s.updThermal r fun _ => a) = (evaluationAlarms r x a s).updThermal r fun _ => a := by
    unfold evaluationAlarms; cases a.state <;> simp only <;> first | rfl | (split <;> rfl)
  have kept : (evaluationAlarms r x a s).now = s.now := by
    unfold evaluationAlarms; cases a.state <;> simp only <;> first | rfl | (split <;> rfl)
  have isLate : (a.state = .stale ∧ a.staleRaised = false ∧ ∃ t, a.staleSince = some t ∧ t + Config.staleTime ≤ s.now)
      ↔ x.late s.now = true := by
    rw [ha]; unfold evaluated RoomThermal.late
    cases hk : x.known
    · simp
    · simp only [Bool.not_true, Bool.false_eq_true, if_false]
      repeat' split
      all_goals simp_all
  rw [← ha, claims, staleAlarm_updThermal, kept]
  unfold RoomThermal.judged
  rw [← ha]
  by_cases hl : x.late s.now = true
  · have stale := (isLate.2 hl).1
    have none : evaluationAlarms r x a s = s := by unfold evaluationAlarms; rw [stale]
    rw [if_pos (isLate.2 hl), if_pos hl, if_pos hl, none, updThermal_updThermal]; rfl
  · rw [if_neg fun k => hl (isLate.1 k), if_neg hl, if_neg hl, updThermal_updThermal]; rfl

end Sys2Proof.Machine
end

