-- ==== Sys2Proof/WellFormed.lean ====
section
/-! DEFINITION. Which commands are well formed. Numbers of doors, rooms and evaporators are in range by their types and any bytes
may stand on the link or a lane; what is left to check is that a notice order names every block once. -/

namespace Sys2Proof

/-- A notice order is a rearrangement of the blocks (R184: "gives each of ... a notice"). -/
def noticeOrderOk (order : List Block) : Bool :=
  order.length == Block.all.length && Block.all.all (fun b => order.contains b)

/-- The check of one command. -/
def Instr.wellFormed : Instr → Bool
  | .exchangeBegin => true
  | .exchangeEnd _ => true
  | .unknownRequest => true
  | .readIdent => true
  | .readAttention => true
  | .attentionMask => true
  | .siteSet => true
  | .startSite order => noticeOrderOk order
  | .stopSite order => noticeOrderOk order
  | .readMode => true
  | .linkReset => true
  | .roomSet => true
  | .slotMapSet => true
  | .roomRead => true
  | .roomCount => true
  | .slotRead => true
  | .slotBlock => true
  | .laneRead => true
  | .classSet => true
  | .admission => true
  | .findTag => true
  | .palletRead => true
  | .census => true
  | .holdSet => true
  | .holdClear => true
  | .retire => true
  | .placeCorrect => true
  | .move => true
  | .moveBatch => true
  | .moveCancel => true
  | .moveRedirect => true
  | .moveRead => true
  | .moveCollect => true
  | .dispatchHold => true
  | .terminalSet => true
  | .terminalRead => true
  | .doorSet => true
  | .doorSeal => true
  | .doorOpen => true
  | .doorClose => true
  | .doorRelease => true
  | .doorRead => true
  | .doorClearFault => true
  | .probeSet => true
  | .thermalSet => true
  | .roomTempRead => true
  | .probeRead => true
  | .evapSet => true
  | .defrostRequest => true
  | .defrostAbort => true
  | .evapRelease => true
  | .evapRead => true
  | .alarmList => true
  | .alarmAck => true
  | .alarmRead => true
  | .alarmOverflowClear => true
  | .laneRound _ => true
  | .missedPoll _ _ => true
  | .doorStatus _ => true
  | .probeSetReport _ => true
  | .controllerStatus _ => true
  | .picked _ => true
  | .dropped _ => true
  | .abandon _ => true
  | .submit _ => true
  | .readyReport _ => true
  | .coldStart _ _ _ order => noticeOrderOk order
  | .warmRestart _ _ order => noticeOrderOk order
  | .supplyFailActive order => noticeOrderOk order
  | .supplyFailInactive order => noticeOrderOk order
  | .batteryLowActive order => noticeOrderOk order
  | .batteryLowInactive => true
  | .consistencyChecks order => noticeOrderOk order
  | .rollCallCompletion order => noticeOrderOk order
  | .rollCallLimitExpiry order => noticeOrderOk order
  | .dispatchRetryExpiry => true
  | .sealLimitExpiry _ => true
  | .leafTravelLimitExpiry _ => true
  | .unsealLimitExpiry _ => true
  | .openTimeWaitExpiry _ => true
  | .graceEnd _ => true
  | .maskEnd _ => true
  | .staleAlarmExpiry _ => true
  | .accrualIntervalExpiry => true
  | .frostIntervalExpiry => true
  | .deferralExpiry _ => true
  | .pumpdownDeadlineExpiry _ => true
  | .maxHeatExpiry _ => true
  | .dripDeadlineExpiry _ => true
  | .refreezeDeadlineExpiry _ => true

end Sys2Proof
end

