-- ==== Sys2Proof/Tests/Slice0.lean ====
section
/-! SUPPORT. Tests, each of one step on a small state, and the witnesses of the statements: for each statement with hypotheses a state
and operands that meet them, clause by clause. A request's result code names the clause that its hypotheses chose. -/

-- The tests are checked one after another: in the package as one text, many at once ask for more threads than the limits give.
set_option Elab.async false

namespace Sys2Proof.Tests
open Sys2Proof Sys2Proof.Machine

/-! ## Ill-formed terms (WellFormed) -/

theorem test_wellFormed_accepts : (Instr.startSite Block.all).wellFormed = true ∧ Instr.move.wellFormed = true := by decide
theorem test_wellFormed_startSite : (Instr.startSite [.mds]).wellFormed = false := by decide
theorem test_wellFormed_stopSite : (Instr.stopSite []).wellFormed = false := by decide
theorem test_wellFormed_coldStart : (Instr.coldStart .hostOnly false false [.mds, .mds, .dkc, .tsu, .dfc]).wellFormed = false := by
  decide
theorem test_wellFormed_warmRestart : (Instr.warmRestart false false [.lpl]).wellFormed = false := by decide
theorem test_wellFormed_supply : (Instr.supplyFailActive []).wellFormed = false
    ∧ (Instr.supplyFailInactive [.dkc]).wellFormed = false ∧ (Instr.batteryLowActive [.tsu]).wellFormed = false := by decide
theorem test_wellFormed_selfCheck : (Instr.consistencyChecks []).wellFormed = false
    ∧ (Instr.rollCallCompletion []).wellFormed = false ∧ (Instr.rollCallLimitExpiry []).wellFormed = false := by decide

/-! ## The check (R198) -/

/-- R198 gives the check of the nine digits. -/
theorem test_crc_of_the_digits : crc [0x31, 0x32, 0x33, 0x34, 0x35, 0x36, 0x37, 0x38, 0x39] = 0x29B1#16 := by decide +kernel

/-! ## A small site -/

/-- The frame of a request with tag 07h. -/
def frame (code : Byte) (args : List Byte) : RequestFrame := { tag := 7#8, code := code, args := args }

/-- The request is the only one queued, and no answer waits. -/
def asks (code : Byte) (args : List Byte) (s : State) : State :=
  s.withLkp { s.lkp with urgent := [], normal := [frame code args], answers := [] }

/-- The state from which the owner takes it. -/
def handed (s : State) : State := s.withLkp { s.lkp with urgent := [], normal := [], answers := [] }

/-- What `asks` sets up is a hand-off wherever the code is available: the premise of every statement about a request. -/
theorem asks_handsOff {code : Byte} {args : List Byte} {s : State} {g : Group} (hg : groupOf code = some g)
    (hm : g.refusal s.mode = none) : HandsOff code (frame code args) (asks code args s) (handed s) :=
  ⟨⟨rfl, rfl⟩, rfl, g, hg, hm⟩

/-- The answer to a request asked in a state. -/
def answer (c : Instr) (code : Byte) (args : List Byte) (s : State) : Option (ResultCode × List Byte) :=
  match exec c (asks code args s) with
  | .next t => t.lkp.answers.head?.map fun a => (a.result, a.results)
  | _ => none

/-- The result code of the answer. -/
def result (c : Instr) (code : Byte) (args : List Byte) (s : State) : Option ResultCode := (answer c code args s).map (·.1)

/-- Something of the next state of a command. -/
def after {α : Type} (c : Instr) (f : State → α) (s : State) : Option α :=
  match exec c s with
  | .next t => some (f t)
  | _ => none

/-- Room 0 is the dock, room 1 a freezer with slots 0 to 3; class 0 is configured; the part is in `mode` at time 1000. -/
def bare (mode : Mode) : State :=
  let s := State.reset
  let p := s.withPdr { s.pdr with
    kind := (s.pdr.kind.set 0 .dock).set 1 .freezer, ending := #v[0, 4, 4, 4, 4, 4, 4, 4] }
  let c := p.withCtb { p.ctb with classes := p.ctb.classes.set 0 { limit := -180, budget := 100, excess := 20, preferred := 1 } }
  c.withMoc { c.moc with mode := mode, modeSince := 900, strap := .terminal, clock := 1000 }

/-- A pallet of class 0. -/
def load (tag : Nat) (place : Place) (liveOrder : Option OrderId) : Pallet :=
  { tag := BitVec.ofNat 48 tag, cls := 0, place := place, holds := {}, exposure := 0, admittedAt := 10, admittingDoor := 0
    liveOrder := liveOrder }

/-- Handle, order and session names. -/
def h0 : Handle := { index := 0, gen := 0 }
def h1 : Handle := { index := 1, gen := 0 }
def o0 : OrderId := { index := 0, gen := 0 }
def trailer (dir : Direction) : Session :=
  { ref := 77#32, direction := dir, expected := 2, count := 0, moved := 0, sealedAt := some 900, openSeconds := 0 }

/-- Pallet 0 in slot 0 and pallet 1 at the head of lane 1; door 0 is SEALED inbound, door 1 OPEN outbound, door 2 ARRIVED; terminal 0
is IDLE; evaporator 0 refrigerates room 1. -/
def site (mode : Mode) : State :=
  let a := ((bare mode).setEntry 0 { rec? := some (load 5 (.slot 0) none) }).setEntry 1 { rec? := some (load 9 (.lane 1) none) }
  let b := (a.setSlot 0 (.occupied h0)).updStagingLane 1 fun l => { l with members := [h1] }
  let c := b.updDoor 0 fun x => { x with inService := true, state := .sealed, session := some (trailer .inbound) }
  let d := c.updDoor 1 fun x =>
    { x with inService := true, state := .opened, session := some (trailer .outbound), openSince := some 990 }
  let e := d.updDoor 2 fun x => { x with inService := true, state := .arrived }
  (e.updTerminal 0 fun x => { x with enabled := true, state := .idle }).updEvap 0 fun x =>
    { x with cfg := { x.cfg with configured := true, room := 1 } }

/-- The site in RUN. -/
def yard : State := site .run

/-- The site in RUN with an order for pallet 0 from slot 0 to lane 1, in a state, bound to terminal 0. -/
def busy (st : OrderState) (ts : TermState) : State :=
  let x : Order :=
    { pallet := h0, origin := .slot 0, dest := .lane 1, priority := .normal, state := st, terminal := some 0, routeDoor := none
      createdAt := 950, finishedAt := none, outcome := none, seqNo := 0 }
  let place : Place := if st = .carrying then .carried o0 else .slot 0
  let a := (yard.setEntry 0 { rec? := some (load 5 place (some o0)) }).setOrderEntry 0 { rec? := some x }
  let b := (if st = .carrying then a.setSlot 0 .free else a).updStagingLane 1 fun l => { l with reserved := 1 }
  b.updTerminal 0 fun y => { y with state := ts, bound := some o0 }

/-- Place codes. -/
def lane1 : List Byte := be 2 (Place.lane 1).code
def floor1 : List Byte := be 2 (Place.floor 1).code
def door1 : List Byte := be 2 (Place.atDoor 1).code

/-- A HEARD station is polled with sequence number 3 on its lane. -/
def polls (st : StationId) (link : LinkState) (s : State) : State :=
  (s.updStation st fun x => { x with link := link, seqNo := 3 }).updLane st.lane fun x =>
    { x with polling := .polled, position := some st }

/-- Something of the state after a station's answer. -/
def hears {α : Type} (st : StationId) (rep : Report) (f : State → α) (s : State) : Option α :=
  after (rep.row (answerBytes st 3#8 rep)) f (polls st .heard s)

/-- What `polls` sets up is a good answer of a HEARD station: the premise of every statement about a report. -/
theorem polls_answers : Answers (.door 0) (.door {}) (answerBytes (.door 0) 3#8 (.door {})) (polls (.door 0) .heard yard) :=
  ⟨by decide +kernel, by decide +kernel, by decide +kernel⟩

/-! ## The queue of commands and the whole part -/

theorem test_step_takes_the_front : (State.reset.withPending [.readMode, .move]).pending = .readMode :: [.move]
    ∧ (match step (State.reset.withPending [.readMode, .move]) with | .next t => t.pending | _ => []) = [.move] := by
  decide +kernel
theorem test_idle_second : (match step State.reset with | .next t => (t.moc.clock, t.timeBase) | _ => (0, 0)) = (1, 1) := by
  decide +kernel
/-- A table whose listed values and unlisted value have a property reads values that have it. -/
theorem sget_of_all {α : Type} {P : α → Prop} {d : α} (hd : P d) :
    ∀ (m : List (Nat × α)) (k : Nat), (∀ x ∈ m, P x.2) → P (sget d m k)
  | [], _, _ => hd
  | (j, v) :: m, k, h => by
    rw [sget]
    split
    · exact h (j, v) (List.mem_cons_self ..)
    · exact sget_of_all hd m k fun x hx => h x (List.mem_cons_of_mem _ hx)

/-- A carried order, a raised alarm, the most frost, exposure and discards, a held allowance: a state within every bound. -/
def bounded : State :=
  let a := (busy .carrying .carrying).updPallet h0 fun p => { p with exposure := 65535 }
  let b := a.updEvap 0 fun x => { x with frost := 1000, allowanceHeld := true, phase := .heat }
  raiseAlarm .doorFault (.door 0) (some (.faultCode .sealLost)) (b.withLkp { b.lkp with discards := 255 })
theorem test_witness_bounds : TablesCanonical bounded ∧ LinkBounded bounded ∧ MoveCauseTrue bounded ∧ RetryTrue bounded
    ∧ LanesBounded bounded ∧ ClockBounded bounded ∧ AllowanceBounded bounded ∧ ChecksInChecking bounded := by
  refine ⟨?_, ?_, ?_, ?_, ?_, ?_, ?_, ?_⟩
  · unfold TablesCanonical; decide +kernel
  · unfold LinkBounded; decide +kernel
  · unfold MoveCauseTrue; decide +kernel
  · unfold RetryTrue; decide +kernel
  · unfold LanesBounded; decide +kernel
  · unfold ClockBounded; decide +kernel
  · unfold AllowanceBounded; decide +kernel
  · unfold ChecksInChecking; decide +kernel
theorem test_witness_alarm_bounds : AlarmsBounded bounded ∧ bounded.alt.records.length = 1 := by
  unfold AlarmsBounded; decide +kernel
theorem test_witness_load_bounds : LoadsBounded bounded ∧ (bounded.pallet? h0).map (·.exposure) = some 65535
    ∧ (bounded.evap 0).frost = 1000 := by
  refine ⟨⟨by decide +kernel, ?_⟩, by decide +kernel, by decide +kernel⟩
  intro h p hp
  have all : ∀ x ∈ bounded.ctb.entries, ∀ q, x.2.rec? = some q → q.exposure ≤ 65535 := by decide +kernel
  have e := sget_of_all (P := fun x : PalletEntry => ∀ q, x.rec? = some q → q.exposure ≤ 65535) (d := {})
    (fun q hq => by cases hq) bounded.ctb.entries h.index.1 all
  unfold State.pallet? at hp
  dsimp only at hp
  split at hp
  · exact e p hp
  · cases hp
theorem test_witness_bounds_step : (∃ t, step bounded = .next t) ∧ ∃ t, step (bounded.withPending [.accrualIntervalExpiry]) = .next t :=
  ⟨⟨_, rfl⟩, ⟨_, rfl⟩⟩
theorem test_witness_FramesAndAnswersReadBack :
    let probes : Report := .probes { reading := -32768, indication := .present } { reading := 32767, indication := .present }
      { reading := 0, indication := .notPresent } { reading := 0, indication := .notPresent }
    let back (st : StationId) (rep : Report) := judgeAnswer st 255#8 (answerBytes st 255#8 rep) = some rep
    probes.fits ∧ back (.hub 7) probes ∧ back (.term 15) (.dropped 8192) ∧ back (.term 0) (.dropped 57343)
    ∧ back (.evap 11) (.controller { phase := .heat, coil := -1, heaterOn := true, extension := true })
    ∧ judgeFrame ((frame 0x31 (List.replicate 20 7#8)).bytes true ++ [1, 2]) = .request true (frame 0x31 (List.replicate 20 7#8)) := by
  refine ⟨?_, ?_⟩
  · show ∀ x ∈ _, _
    decide +kernel
  · decide +kernel
theorem test_cold_start_with_both_lines : after (.coldStart .terminal true true Block.all) (fun t => (t.mode, t.moc.remembered)) yard
    = some (.retain, some .standby) := by decide +kernel

/-! ## LKP -/

theorem test_witness_ExchangesDeliverAndJudge :
    let req := (frame 0x07 []).bytes false
    let inX (ready : Bool) : State := yard.withLkp { yard.lkp with exchange := some { ready := ready, out := [], answer := false } }
    after .exchangeBegin (fun t => t.lkp.exchange.isSome) yard = some true
    ∧ after (.exchangeEnd [0xFF#8]) (fun t => t.lkp.discards) (inX true) = some 0
    ∧ after (.exchangeEnd [0x12#8]) (fun t => t.lkp.reasons.frame) (inX true) = some true
    ∧ after (.exchangeEnd req) (fun t => t.lkp.reasons.notReady) (inX false) = some true
    ∧ after (.exchangeEnd req) (fun t => t.lkp.normal.length) (inX true) = some 1
    ∧ after (.exchangeEnd ((frame 0x07 []).bytes true)) (fun t => t.lkp.urgent.length) (inX true) = some 1
    ∧ after (.exchangeEnd req) (fun t => t.lkp.answers.map (·.result))
      ((inX true).withLkp { (inX true).lkp with normal := List.replicate 24 (frame 0x07 []) }) = some [.queueFull] := by
  decide +kernel
theorem test_witness_UnknownRequestAnswered : groupOf 0x7F = none ∧ result .unknownRequest 0x7F [] yard = some .unknownRequest := by
  decide +kernel
theorem test_witness_UnavailableRequestAnswered : result .siteSet 0x04 [] yard = some .mode
    ∧ result .move 0x30 [] (site .holdover) = some .supply := by decide +kernel
theorem test_witness_ArgumentListsJudged : result .move 0x30 [] yard = some .badArg
    ∧ result .doorRead 0x45 (be 2 24) yard = some .badArg := by decide +kernel
theorem test_witness_ReadIdentAnswers : answer .readIdent 0x01 [] yard = some (.ok, [0x0A, 0x7D, 0x24, 0x08, 0x01])
    ∧ result .readIdent 0x01 [0] yard = some .badArg := by decide +kernel
theorem test_witness_AttentionMaskReplacesMasks : answer .attentionMask 0x03 [0x7F] yard = some (.ok, [0])
    ∧ result .attentionMask 0x03 [0x80] yard = some .badArg := by decide +kernel
theorem test_witness_ReadAttentionReturnsAndClears : answer .readAttention 0x02 [0] yard = some (.ok, [7, 0x10, 0, 0, 0x40, 0])
    ∧ answer .readAttention 0x02 [5] yard = some (.ok, [5, 0, 0, 0x40, 0])
    ∧ answer .readAttention 0x02 [0] (yard.withLkp { yard.lkp with pendingCauses := {} }) = some (.ok, [0, 0, 0]) := by
  decide +kernel
theorem test_witness_LinkResetClearsLink : answer .linkReset 0x08 [] yard = some (.ok, [0, 0, 0, 0]) := by decide +kernel

/-! ## PDR and CTB -/

theorem test_witness_RoomRequestsConfigure : result .roomSet 0x10 (be 2 7 ++ [1]) (site .standby) = some .ok
    ∧ result .roomSet 0x10 (be 2 1 ++ [3]) (site .standby) = some .occupied
    ∧ result .roomSet 0x10 (be 2 1 ++ [2]) (site .standby) = some .ok
    ∧ result .slotMapSet 0x11 ([8] ++ [0, 4096, 4096, 4096, 4096, 4096, 4096, 4096].flatMap (be 2)) (site .standby) = some .ok
    ∧ result .slotMapSet 0x11 ([8] ++ [4, 4, 4, 4, 4, 4, 4, 4].flatMap (be 2)) (site .standby) = some .occupied
    ∧ result .slotMapSet 0x11 ([8] ++ [4, 0, 4, 4, 4, 4, 4, 4].flatMap (be 2)) (site .standby) = some .badArg := by decide +kernel
theorem test_witness_RoomReadsAnswer : answer .roomRead 0x12 (be 2 1) yard = some (.ok, [2] ++ be 2 0 ++ be 2 4 ++ be 2 4 ++ be 2 0 ++ [0])
    ∧ answer .roomCount 0x13 (be 2 1) yard = some (.ok, be 2 1 ++ be 2 0 ++ be 2 0 ++ [1] ++ be 2 1)
    ∧ result .roomRead 0x12 (be 2 8) yard = some .badArg ∧ result .roomCount 0x13 (be 2 8) yard = some .badArg := by decide +kernel
theorem test_witness_SlotAndLaneReadsAnswer : answer .slotRead 0x14 (be 2 0) yard = some (.ok, be 2 1 ++ [2] ++ be 2 0)
    ∧ result .slotRead 0x14 (be 2 4) yard = some .badArg ∧ result .slotRead 0x14 (be 2 4096) yard = some .badArg
    ∧ answer .laneRead 0x16 (be 2 1) yard = some (.ok, be 2 0 ++ [1] ++ [1] ++ be 2 1 ++ be 2 0)
    ∧ result .laneRead 0x16 (be 2 24) yard = some .badArg := by decide +kernel
theorem test_witness_SlotBlockDecidedByState : result .slotBlock 0x15 (be 2 3 ++ [1]) yard = some .ok
    ∧ result .slotBlock 0x15 (be 2 3 ++ [0]) yard = some .already ∧ result .slotBlock 0x15 (be 2 0 ++ [1]) yard = some .occupied
    ∧ result .slotBlock 0x15 (be 2 3 ++ [0]) (yard.setSlot 3 .blocked) = some .ok
    ∧ result .slotBlock 0x15 (be 2 3 ++ [1]) (yard.setSlot 3 (.reserved o0)) = some .occupied
    ∧ result .slotBlock 0x15 (be 2 4 ++ [1]) yard = some .badArg := by decide +kernel
theorem test_witness_LowestFreeSlotIsLowest : yard.lowestFree 1 = some 1 ∧ yard.lowestFree 0 = none
    ∧ (reserveClaim o0 (.anySlot 1) yard).toOption.map (·.1) = some (.slot 1) := by decide +kernel
theorem test_witness_ClassSetStoresTheClass :
    let row (limit : Int) (budget room : Nat) : List Byte := be 2 0 ++ temp2 limit ++ be 2 budget ++ be 2 20 ++ be 2 room
    result .classSet 0x20 (row 500 65535 1) (site .standby) = some .ok ∧ result .classSet 0x20 (row 501 1 1) (site .standby) = some .badArg
    ∧ result .classSet 0x20 (row 0 1 0) (site .standby) = some .badArg ∧ result .classSet 0x20 (row 0 0 0) (site .standby) = some .occupied
    ∧ answer .classSet 0x20 (row 0 0 0) (bare .standby) = some (.ok, be 2 0) := by decide +kernel
theorem test_witness_AdmitCreatesTheRecord : answer .admission 0x21 (be 6 33 ++ be 2 0 ++ be 2 0) yard = some (.ok, be 2 2)
    ∧ result .admission 0x21 (be 6 33 ++ be 2 1 ++ be 2 0) yard = some .badArg
    ∧ result .admission 0x21 (be 6 5 ++ be 2 0 ++ be 2 0) yard = some .duplicateTag
    ∧ result .admission 0x21 (be 6 33 ++ be 2 0 ++ be 2 1) yard = some .doorState := by decide +kernel
theorem test_witness_CustodyReadsAnswer : answer .findTag 0x22 (be 6 5 ++ [0]) yard = some (.ok, be 2 0)
    ∧ answer .findTag 0x22 (be 6 6 ++ [1]) yard = some (.ok, be 6 9 ++ be 2 1)
    ∧ result .findTag 0x22 (be 6 6 ++ [0]) yard = some .notFound ∧ result .findTag 0x22 (be 6 10 ++ [1]) yard = some .notFound
    ∧ result .findTag 0x22 (be 6 6 ++ [2]) yard = some .badArg ∧ result .palletRead 0x23 (be 2 1) yard = some .ok
    ∧ result .palletRead 0x23 (be 2 4097) yard = some .staleHandle
    ∧ answer .census 0x24 ([1] ++ be 2 2) yard = some (.ok, [1, 0x80] ++ be 2 0 ++ be 2 0 ++ be 2 0xFFFF) := by decide +kernel
theorem test_witness_HoldSetAndClear :
    let q := yard.updPallet h0 fun p => { p with holds := { p.holds with quality := true } }
    answer .holdSet 0x25 (be 2 0 ++ [2]) yard = some (.ok, [2]) ∧ result .holdSet 0x25 (be 2 0 ++ [1]) yard = some .badArg
    ∧ result .holdSet 0x25 (be 2 0 ++ [2]) q = some .already ∧ result .holdSet 0x25 (be 2 2 ++ [2]) yard = some .staleHandle
    ∧ result .holdClear 0x26 (be 2 0 ++ [2]) q = some .ok ∧ result .holdClear 0x26 (be 2 0 ++ [2]) yard = some .already
    ∧ result .holdClear 0x26 (be 2 0 ++ [3]) yard = some .locked ∧ result .holdClear 0x26 (be 2 0 ++ [4]) yard = some .badArg
    ∧ result .holdClear 0x26 (be 2 2 ++ [2]) yard = some .staleHandle := by decide +kernel
theorem test_witness_RetireAndPlaceCorrect : result .retire 0x27 (be 2 0) yard = some .ok
    ∧ result .retire 0x27 (be 2 2) yard = some .staleHandle ∧ result .retire 0x27 (be 2 0) (busy .queued .idle) = some .busy
    ∧ answer .placeCorrect 0x28 (be 2 0 ++ floor1) yard = some (.ok, floor1 ++ [0])
    ∧ result .placeCorrect 0x28 (be 2 0 ++ be 2 (Place.slot 0).code) yard = some .ok
    ∧ result .placeCorrect 0x28 (be 2 1 ++ be 2 (Place.slot 0).code) yard = some .destFull
    ∧ result .placeCorrect 0x28 (be 2 0 ++ door1) yard = some .badArg
    ∧ result .placeCorrect 0x28 (be 2 0 ++ be 2 (Place.slot 9).code) yard = some .badArg
    ∧ result .placeCorrect 0x28 (be 2 0 ++ floor1) (busy .queued .idle) = some .busy := by decide +kernel

/-! ## MDS -/

theorem test_witness_MoveCreatesTheOrder : answer .move 0x30 (be 2 0 ++ lane1 ++ [0]) yard = some (.ok, be 2 0 ++ lane1)
    ∧ result .move 0x30 (be 2 0 ++ be 2 0 ++ [0]) yard = some .badArg ∧ result .move 0x30 (be 2 2 ++ lane1 ++ [0]) yard = some .staleHandle
    ∧ result .move 0x30 (be 2 0 ++ lane1 ++ [0]) (busy .queued .idle) = some .busy
    ∧ result .move 0x30 (be 2 1 ++ lane1 ++ [0]) yard = some .badArg
    ∧ result .move 0x30 (be 2 0 ++ be 2 (Place.atDoor 0).code ++ [0]) yard = some .doorState
    ∧ result .move 0x30 (be 2 0 ++ lane1 ++ [0]) (yard.updPallet h0 fun p => { p with holds := { p.holds with quality := true } })
      = some .held
    ∧ result .move 0x30 (be 2 1 ++ be 2 (Place.slot 0).code ++ [1]) yard = some .destFull := by decide +kernel
theorem test_witness_MoveBatchTakesEachElement :
    answer .moveBatch 0x31 ([2] ++ be 2 0 ++ be 2 0 ++ [2, 1, 0] ++ lane1 ++ floor1 ++ [0]) yard
      = some (.ok, be 2 1 ++ [2, 0x00] ++ be 2 0 ++ [0x24, 0xFF, 0xFF])
    ∧ result .moveBatch 0x31 ([0, 0] ++ lane1 ++ floor1 ++ [0]) yard = some .badArg := by decide +kernel
theorem test_witness_MoveCancelEndsTheOrder : result .moveCancel 0x32 (be 2 0 ++ [0, 0, 0]) (busy .queued .idle) = some .ok
    ∧ result .moveCancel 0x32 (be 2 0 ++ [0, 0, 0]) (busy .granted .granted) = some .ok
    ∧ result .moveCancel 0x32 (be 2 0 ++ [0, 0, 0]) yard = some .staleHandle
    ∧ result .moveCancel 0x32 (be 2 0 ++ [0, 0, 0]) (busy .finished .idle) = some .orderState
    ∧ result .moveCancel 0x32 (be 2 0 ++ [1, 0, 1]) (busy .carrying .carrying) = some .inCarry
    ∧ result .moveCancel 0x32 (be 2 0 ++ [0, 0, 0]) (busy .carrying .offline) = some .inCarry
    ∧ result .moveCancel 0x32 (be 2 0 ++ [1, 0, 7]) (busy .carrying .offline) = some .badArg
    ∧ result .moveCancel 0x32 (be 2 0 ++ [1, 0, 8]) (busy .carrying .offline) = some .badArg
    ∧ result .moveCancel 0x32 (be 2 0 ++ [1, 0, 1]) (busy .carrying .offline) = some .ok := by decide +kernel
theorem test_witness_MoveRedirectChangesTheDestination : answer .moveRedirect 0x33 (be 2 0 ++ floor1) (busy .granted .granted) = some (.ok, floor1)
    ∧ result .moveRedirect 0x33 (be 2 0 ++ door1) (busy .granted .granted) = some .ok
    ∧ result .moveRedirect 0x33 (be 2 0 ++ floor1) (busy .carrying .carrying) = some .ok
    ∧ result .moveRedirect 0x33 (be 2 0 ++ floor1) yard = some .staleHandle
    ∧ result .moveRedirect 0x33 (be 2 0 ++ floor1) (busy .finished .idle) = some .orderState
    ∧ result .moveRedirect 0x33 (be 2 0 ++ lane1) (busy .queued .idle) = some .already
    ∧ result .moveRedirect 0x33 (be 2 0 ++ be 2 (Place.slot 0).code) (busy .queued .idle) = some .badArg
    ∧ result .moveRedirect 0x33 (be 2 0 ++ be 2 (Place.atDoor 0).code) (busy .queued .idle) = some .doorState
    ∧ result .moveRedirect 0x33 (be 2 0 ++ door1) ((busy .queued .idle).updPallet h0 fun p => { p with holds := { quality := true } })
      = some .held := by decide +kernel
theorem test_witness_OrderReadsAndCollect : result .moveRead 0x34 (be 2 0) (busy .queued .idle) = some .ok
    ∧ result .moveRead 0x34 (be 2 0) yard = some .staleHandle ∧ result .terminalRead 0x38 (be 2 15) yard = some .ok
    ∧ (let s := busy .finished .idle
      (answer .moveCollect 0x35 [] (s.withMds { s.mds with finished := [o0] })).map (fun x => x.2.head?) = some (some 1)) := by
  decide +kernel
theorem test_witness_DispatchHoldAndTerminalSet : result .dispatchHold 0x36 [0, 1] yard = some .ok ∧ result .dispatchHold 0x36 [0, 0] yard = some .already
    ∧ answer .dispatchHold 0x36 [0xFF, 1] yard = some (.ok, be 2 16) ∧ result .dispatchHold 0x36 [16, 1] yard = some .badArg
    ∧ result .terminalSet 0x37 (be 2 1 ++ [1]) (site .standby) = some .ok ∧ result .terminalSet 0x37 (be 2 0 ++ [1]) (site .standby) = some .already
    ∧ result .terminalSet 0x37 (be 2 0 ++ [0]) (site .standby) = some .ok
    ∧ result .terminalSet 0x37 (be 2 0 ++ [0]) ((site .standby).updTerminal 0 fun x => { x with bound := some o0 }) = some .busy := by
  decide +kernel
theorem test_witness_PickedAndDropped :
    let slot (t : State) := (t.station (.term 0)).slot
    let held := (busy .carrying .carrying).updPallet h0 fun p => { p with holds := { quality := true } }
    hears (.term 0) (.picked 5 (Place.slot 0).code) (fun t => (t.terminal 0).state) (busy .granted .granted) = some .carrying
    ∧ hears (.term 0) (.picked 6 (Place.slot 0).code) slot (busy .granted .granted) = some (some (.term (.refuse .pickMismatch)))
    ∧ hears (.term 0) (.picked 5 (Place.slot 0).code) slot yard = some (some (.term (.refuse .state)))
    ∧ hears (.term 0) (.dropped (Place.lane 1).code) (fun t => (t.mds.finished, (t.stagingLane 1).members))
      (busy .carrying .carrying) = some ([o0], [h1, h0])
    ∧ hears (.term 0) (.dropped (Place.floor 1).code) slot (busy .carrying .carrying) = some (some (.term (.refuse .dropMismatch)))
    ∧ hears (.term 0) (.dropped (Place.lane 1).code) slot held = some (some (.term (.refuse .held)))
    ∧ hears (.term 0) (.dropped (Place.atDoor 0).code) slot ((busy .carrying .carrying).updOrder o0 fun x => { x with dest := .atDoor 0 })
      = some (some (.term (.refuse .doorShut)))
    ∧ hears (.term 0) (.dropped (Place.lane 1).code) slot yard = some (some (.term (.refuse .state))) := by decide +kernel
theorem test_witness_AbandonSubmitReady :
    let slot (t : State) := (t.station (.term 0)).slot
    let no (why : RefuseReason) := some (some (StationCmd.term (.refuse why)))
    hears (.term 0) (.abandon 1) (fun t => (t.floor 1, t.mds.finished)) (busy .carrying .carrying) = some ([h0], [o0])
    ∧ hears (.term 0) (.abandon 7) slot (busy .carrying .carrying) = no .place
    ∧ hears (.term 0) (.abandon 8) slot (busy .carrying .carrying) = no .place ∧ hears (.term 0) (.abandon 1) slot yard = no .state
    ∧ hears (.term 0) (.submit 9) (fun t => (t.orderEntry 0).rec?.isSome) yard = some true
    ∧ hears (.term 0) (.submit 5) slot yard = no .place ∧ hears (.term 0) (.submit 8) slot yard = no .notFound
    ∧ hears (.term 0) (.submit 9) slot (site .holdover) = no .mode
    ∧ hears (.term 0) (.submit 9) slot (yard.withMoc { yard.moc with strap := .hostOnly }) = no .notEnabled
    ∧ hears (.term 0) (.submit 9) slot (busy .granted .granted) = no .state
    ∧ hears (.term 0) (.submit 5) slot ((busy .queued .idle).updTerminal 0 fun x => { x with dispatchHold := true }) = no .busy
    ∧ hears (.term 0) (.ready true) (fun t => (t.terminal 0).handsFull) yard = some true := by decide +kernel
theorem test_witness_DispatchPassVisitsWaitingTerminals :
    let s := busy .queued .idle
    s.waitingTerminals = [0] ∧ s.queue .normal = [o0] ∧ s.eligible o0 = true
    ∧ ((dispatchPass s).terminal 0).state = .granted ∧ (dispatchPass (site .standby)) = site .standby
    ∧ after .dispatchRetryExpiry (fun t => (t.terminal 0).state) (s.withMds { s.mds with retryDue := some 1000 }) = some .granted
    ∧ after .dispatchRetryExpiry (fun t => (t.terminal 0).state) (s.withMds { s.mds with retryDue := some 1001 }) = some .idle := by
  decide +kernel

/-! ## DKC -/

theorem test_witness_DoorSetConfigures :
    let s := site .standby
    let row (d : Nat) (room limit : Nat) (on : Byte) : List Byte := be 2 d ++ be 2 room ++ be 2 limit ++ [on]
    result .doorSet 0x40 (row 2 0 60 1) s = some .ok ∧ result .doorSet 0x40 (row 2 0 59 1) s = some .badArg
    ∧ result .doorSet 0x40 (row 2 0 3601 1) s = some .badArg ∧ result .doorSet 0x40 (row 1 0 900 0) s = some .occupied
    ∧ result .doorSet 0x40 (row 0 0 900 0) s = some .doorState ∧ result .doorSet 0x40 (row 2 1 3600 0) s = some .ok
    ∧ result .doorSet 0x40 (row 3 0 900 1) s = some .ok
    ∧ result .doorSet 0x40 (row 0 1 900 1) (s.updDoor 0 fun x => { x with state := .opening }) = some .doorState := by
  decide +kernel
theorem test_witness_DoorSealStartsTheSeal :
    let row (d ref : Nat) (dir : Byte) (n : Nat) : List Byte := be 2 d ++ be 4 ref ++ [dir] ++ be 2 n
    let kept := yard.updDoor 2 fun x => { x with session := some (trailer .inbound) }
    result .doorSeal 0x41 (row 2 77 1 60) yard = some .accepted ∧ result .doorSeal 0x41 (row 2 77 0 0) yard = some .accepted
    ∧ result .doorSeal 0x41 (row 2 77 1 61) yard = some .badArg ∧ result .doorSeal 0x41 (row 0 77 1 60) yard = some .doorState
    ∧ result .doorSeal 0x41 (row 2 77 0 5) kept = some .accepted ∧ result .doorSeal 0x41 (row 2 78 0 5) kept = some .badArg := by
  decide +kernel
theorem test_witness_DoorOpenCloseRelease :
    let late (n : Nat) := yard.updDoor 0 fun x => { x with closeCompleted := n }
    let used := yard.updDoor 1 fun x => { x with useList := [o0] }
    result .doorOpen 0x42 (be 2 0) (late 995) = some .accepted ∧ result .doorOpen 0x42 (be 2 0) (late 996) = some .settling
    ∧ result .doorOpen 0x42 (be 2 1) yard = some .already ∧ result .doorOpen 0x42 (be 2 2) yard = some .doorState
    ∧ result .doorOpen 0x42 (be 2 0) (yard.updHold 0 fun h => { h with state := .held }) = some .defrostHold
    ∧ result .doorClose 0x43 (be 2 1 ++ [0]) yard = some .accepted ∧ result .doorClose 0x43 (be 2 1 ++ [0]) used = some .doorInUse
    ∧ result .doorClose 0x43 (be 2 1 ++ [1]) used = some .accepted ∧ result .doorClose 0x43 (be 2 0 ++ [0]) yard = some .already
    ∧ result .doorClose 0x43 (be 2 2 ++ [0]) yard = some .doorState ∧ result .doorRelease 0x44 (be 2 0) yard = some .accepted
    ∧ result .doorRelease 0x44 (be 2 1) yard = some .doorState
    ∧ result .doorRelease 0x44 (be 2 0) (yard.updDoorPallets 0 fun _ => [h0]) = some .notEmpty
    ∧ result .doorRelease 0x44 (be 2 0) ((busy .queued .idle).updOrder o0 fun x => { x with dest := .atDoor 0 }) = some .doorInUse := by
  decide +kernel
theorem test_witness_DoorReadAndClearFault :
    let faulty (r : DoorReport) (y : Option Session) := yard.updDoor 0 fun x =>
      { x with state := .fault, fault := some .sealLost, last := r, session := y }
    let closed : DoorReport := { leaf := .closed, sealOk := true, trailer := true, stationFault := 0 }
    result .doorRead 0x45 (be 2 23) yard = some .ok ∧ result .doorClearFault 0x46 (be 2 0) yard = some .doorState
    ∧ answer .doorClearFault 0x46 (be 2 0) (faulty closed (some (trailer .inbound))) = some (.ok, [3])
    ∧ answer .doorClearFault 0x46 (be 2 0) (faulty closed none) = some (.ok, [1])
    ∧ answer .doorClearFault 0x46 (be 2 0) (faulty { closed with trailer := false } none) = some (.ok, [0]) := by decide +kernel
theorem test_witness_DoorLimitsExpire :
    let at_ (st : DoorState) (since : Nat) := yard.updDoor 0 fun x => { x with state := st, stateSince := since }
    let state (t : State) := (t.door 0).state
    let waits (n : Nat) := yard.updDoor 1 fun x => { x with openWaitDue := some n }
    after (.sealLimitExpiry 0) state (at_ .sealing 940) = some .arrived ∧ after (.sealLimitExpiry 0) state (at_ .sealing 941) = some .sealing
    ∧ after (.leafTravelLimitExpiry 0) state (at_ .opening 980) = some .fault
    ∧ after (.leafTravelLimitExpiry 0) state (at_ .closing 981) = some .closing
    ∧ after (.unsealLimitExpiry 0) state (at_ .unsealing 940) = some .fault
    ∧ after (.unsealLimitExpiry 0) state (at_ .unsealing 941) = some .unsealing
    ∧ after (.openTimeWaitExpiry 1) (fun t => t.alt.records.length) (waits 1000) = some 1
    ∧ after (.openTimeWaitExpiry 1) (fun t => t.alt.records.length) (waits 1001) = some 0 := by decide +kernel
theorem test_witness_DoorReportsActByState :
    let goes (d : Fin 24) (r : DoorReport) (s : State) := hears (.door d) (.door r) (fun t => (t.door d).state) s
    let good : DoorReport := { leaf := .closed, sealOk := true, trailer := true, stationFault := 0 }
    let at_ (st : DoorState) := yard.updDoor 0 fun x => { x with state := st }
    goes 0 good yard = some .sealed ∧ goes 0 { good with stationFault := 1 } yard = some .fault
    ∧ goes 0 { good with trailer := false } yard = some .fault ∧ goes 2 { good with trailer := false } yard = some .vacant
    ∧ goes 0 good (at_ .sealing) = some .sealed ∧ goes 0 { good with sealOk := false } (at_ .unsealing) = some .arrived
    ∧ goes 0 { good with sealOk := false } yard = some .fault ∧ goes 0 { good with leaf := .moving } yard = some .fault
    ∧ goes 1 { good with leaf := .opened } yard = some .opened ∧ goes 1 good yard = some .fault
    ∧ goes 0 { good with leaf := .opened } (at_ .opening) = some .opened ∧ goes 0 good (at_ .opening) = some .opening
    ∧ goes 0 good (at_ .closing) = some .sealed ∧ goes 0 { good with leaf := .moving } (at_ .closing) = some .closing
    ∧ goes 0 good (at_ .vacant) = some .arrived ∧ goes 0 { good with trailer := false } (at_ .vacant) = some .vacant
    ∧ goes 0 good (at_ .fault) = some .fault
    ∧ goes 0 good (yard.updDoor 0 fun x => { x with state := .offline, remembered := some .sealed }) = some .sealed := by decide +kernel

/-! ## TSU, DFC and ALT -/

theorem test_witness_ThermalRequestsAnswer : result .probeSet 0x50 (be 2 31 ++ [1, 1]) (site .standby) = some .ok
    ∧ result .thermalSet 0x51 (be 2 7 ++ temp2 500 ++ be 2 60 ++ be 2 3600) yard = some .ok
    ∧ result .thermalSet 0x51 (be 2 7 ++ temp2 501 ++ be 2 60 ++ be 2 3600) yard = some .badArg
    ∧ result .thermalSet 0x51 (be 2 7 ++ temp2 (-500) ++ be 2 59 ++ be 2 0) yard = some .badArg
    ∧ result .roomTempRead 0x52 (be 2 7) yard = some .ok ∧ result .probeRead 0x53 (be 2 31) yard = some .ok := by decide +kernel
theorem test_witness_ThermalDeadlinesEvaluate :
    let room (f : RoomThermal → RoomThermal) := yard.updThermal 1 f
    let state (t : State) := (t.thermal 1).state
    let warm (since : Nat) : RoomThermal → RoomThermal := fun x =>
      { x with known := true, temp := 5, state := .warm, warmSince := some since, graceEnd := some (since + 600), maskEnd := some 1000 }
    let stale (since : Nat) : RoomThermal → RoomThermal := fun x =>
      { x with state := .stale, staleSince := some since, staleDue := some (since + 120) }
    after (.graceEnd 1) state (room (warm 400)) = some .excursion ∧ after (.graceEnd 1) state (room (warm 401)) = some .warm
    ∧ after (.maskEnd 1) state (room (warm 400)) = some .excursion
    ∧ after (.staleAlarmExpiry 1) (fun t => (t.thermal 1).staleRaised) (room (stale 880)) = some true
    ∧ after (.staleAlarmExpiry 1) (fun t => (t.thermal 1).staleRaised) (room (stale 881)) = some false
    ∧ state (evaluateRoom 1 (room fun x => { x with known := true, temp := 0 })) = .normal
    ∧ state (evaluateRoom 1 (room fun x => { x with known := true, temp := 1, state := .excursion })) = .excursion
    ∧ state (evaluateRoom 1 yard) = .stale
    ∧ after .accrualIntervalExpiry (fun t => (t.pallet? h0).map (·.exposure)) (yard.withTsu { yard.tsu with accrualDue := some 1000 })
      = some (some 20)
    ∧ after .accrualIntervalExpiry (fun t => (t.pallet? h0).map (·.exposure)) (yard.withTsu { yard.tsu with accrualDue := some 1001 })
      = some (some 0) := by decide +kernel
theorem test_witness_ProbeReportsSetTheProbes :
    let fitted := yard.updProbe 4 fun x => { x with fitted := true, status := .silent }
    let e (t : Int) (i : Indication) : ProbeEntry := { reading := t, indication := i }
    let room (a : ProbeEntry) := hears (.hub 1) (.probes a (e 0 .notPresent) (e 0 .notPresent) (e 0 .notPresent))
      (fun t => ((t.probe 4).status, (t.thermal 1).known)) fitted
    room (e 500 .present) = some (.ok, true) ∧ room (e 501 .present) = some (.outOfRange, false)
    ∧ room (e 0 .sensorFault) = some (.flagged, false) ∧ room (e 0 .notPresent) = some (.absent, false) := by decide +kernel
theorem test_witness_EvaporatorRequestsAnswer :
    let row (on : Byte) (room pump : Nat) : List Byte := be 2 0 ++ [on] ++ be 2 room ++ be 2 pump ++ be 2 1800 ++ temp2 100 ++ be 2 180
      ++ be 2 300 ++ temp2 (-50) ++ be 2 45 ++ be 2 0 ++ be 2 0 ++ be 2 1000
    let s := site .standby
    let phase (p : Phase) (s : State) := s.updEvap 0 fun x => { x with phase := p }
    let abort (p : Phase) := result .defrostAbort 0x62 (be 2 0) (phase p yard)
    result .evapSet 0x60 (row 1 1 30) s = some .ok ∧ result .evapSet 0x60 (row 1 1 29) s = some .badArg
    ∧ result .evapSet 0x60 (row 0 1 300) s = some .ok ∧ result .evapSet 0x60 (row 1 0 300) (phase .fault s) = some .busy
    ∧ result .evapSet 0x60 (row 1 1 300) (bare .standby) = some .ok ∧ result .defrostRequest 0x61 (be 2 0) yard = some .accepted
    ∧ result .defrostRequest 0x61 (be 2 0) (phase .heat yard) = some .already ∧ result .defrostRequest 0x61 (be 2 11) yard = some .badArg
    ∧ result .defrostAbort 0x62 (be 2 11) yard = some .badArg ∧ result .evapRelease 0x63 (be 2 11) yard = some .badArg
    ∧ abort .demanded = some .ok ∧ abort .allotted = some .ok ∧ abort .pumpdown = some .ok ∧ abort .heat = some .ok
    ∧ abort .drip = some .already ∧ result .evapRelease 0x63 (be 2 0) (phase .fault yard) = some .ok
    ∧ result .evapRelease 0x63 (be 2 0) yard = some .evapState ∧ result .evapRead 0x64 (be 2 0) yard = some .ok := by decide +kernel
theorem test_witness_DefrostDeadlinesExpire :
    let due (p : Phase) (n : Nat) := yard.updEvap 0 fun x => { x with phase := p, deadline := some n }
    let phase (t : State) := (t.evap 0).phase
    let waits (p : Phase) (n : Nat) := yard.updEvap 0 fun x => { x with phase := p, demandSince := some 0, deferralDue := some n }
    let rate := (yard.updEvap 0 fun x => { x with cfg := { x.cfg with baseRate := 7 } })
    after (.pumpdownDeadlineExpiry 0) phase (due .pumpdown 1000) = some .heat
    ∧ after (.pumpdownDeadlineExpiry 0) phase (due .pumpdown 1001) = some .pumpdown
    ∧ after (.maxHeatExpiry 0) phase (due .heat 1000) = some .drip ∧ after (.dripDeadlineExpiry 0) phase (due .drip 1000) = some .refreeze
    ∧ after (.refreezeDeadlineExpiry 0) phase (due .refreeze 1000) = some .idle
    ∧ after (.deferralExpiry 0) (fun t => (t.evap 0).forced) (waits .allotted 1000) = some true
    ∧ after (.deferralExpiry 0) phase (waits .demanded 1000) = some .pumpdown
    ∧ after (.deferralExpiry 0) phase (waits .demanded 1001) = some .demanded
    ∧ after .frostIntervalExpiry (fun t => (t.evap 0).frost) (rate.withDfc { rate.dfc with frostDue := some 1000 }) = some 7
    ∧ after .frostIntervalExpiry (fun t => (t.evap 0).frost) (rate.withDfc { rate.dfc with frostDue := some 1001 }) = some 0 := by
  decide +kernel
def inPhase (p : Phase) : State := yard.updEvap 0 fun x => { x with phase := p, deadline := some 2000 }
def tells (p : CtlPhase) (coil : Int) (heat ext : Bool) (s : State) : Option (Phase × Option Nat × Option StationCmd) :=
  hears (.evap 0) (.controller { phase := p, coil := coil, heaterOn := heat, extension := ext })
    (fun t => ((t.evap 0).phase, (t.evap 0).deadline, (t.station (.evap 0)).slot)) s
theorem test_witness_ControllerReportsActByPhase :
    tells .heat 100 true false (inPhase .heat) = some (.drip, some 1180, some (.evap .drip))
    ∧ tells .heat 99 true false (inPhase .heat) = some (.heat, some 2000, none)
    ∧ tells .drip 0 false true (inPhase .drip) = some (.drip, some 2120, none)
    ∧ tells .refreeze (-50) false false (inPhase .refreeze) = some (.idle, none, some (.evap .run)) := by
  decide +kernel
theorem test_witness_ControllerReportsActByPhase_kept :
    tells .refreeze (-49) false false (inPhase .refreeze) = some (.refreeze, some 2000, none)
    ∧ tells .heat 0 true false yard = some (.idle, none, some (.evap .run))
    ∧ tells .heat 0 true false (inPhase .fault) = some (.fault, some 2000, none) := by decide +kernel
theorem test_witness_AlarmTableClaims :
    let has (s : State) := s.alt.records.map fun r => (r.state, r.count)
    let one := raiseAlarm .doorFault (.door 0) (some (.faultCode .sealLost)) yard
    let full (last : AlarmState) := yard.withAlt { yard.alt with
      records := (List.range 64).map fun i =>
        { kind := .palletExposed, subject := .pallet (readHandle i), state := if i = 63 then last else .raised, firstRaised := 0
          lastRaised := 0, count := 1, value := none } }
    has one = [(.raised, 1)] ∧ has (raiseAlarm .doorFault (.door 0) none one) = [(.raised, 2)]
    ∧ has (clearAlarm .doorFault (.door 0) one) = [(.cleared, 1)] ∧ has (clearAlarm .doorFault (.door 1) one) = [(.raised, 1)]
    ∧ (raiseAlarm .doorFault (.door 0) none (full .cleared)).alt.unlisted = 0
    ∧ (raiseAlarm .doorFault (.door 0) none (full .raised)).alt.unlisted = 1 := by decide +kernel
theorem test_witness_AlarmRequestsAnswer :
    let with_ (st : AlarmState) := yard.withAlt { yard.alt with
      records := [{ kind := .doorFault, subject := .door 0, state := st, firstRaised := 1, lastRaised := 1, count := 1, value := none }] }
    let pair : List Byte := [2, 1, 0, 0]
    readPair 2 1 0 = some (.doorFault, .door 0) ∧ readPair 2 1 24 = none
    ∧ result .alarmAck 0x71 pair (with_ .raised) = some .ok ∧ result .alarmAck 0x71 pair (with_ .cleared) = some .ok
    ∧ result .alarmAck 0x71 pair (with_ .acked) = some .already ∧ result .alarmAck 0x71 pair yard = some .notFound
    ∧ result .alarmAck 0x71 [2, 1, 0, 24] yard = some .badArg ∧ answer .alarmAck 0x71 [0, 0, 0, 0] (with_ .raised) = some (.ok, be 2 1 ++ be 2 0)
    ∧ result .alarmRead 0x72 pair (with_ .acked) = some .ok ∧ result .alarmRead 0x72 pair yard = some .notFound
    ∧ result .alarmRead 0x72 [2, 2, 0, 0] yard = some .badArg ∧ answer .alarmList 0x70 (be 2 63) yard = some (.ok, [0, 0, 0])
    ∧ result .alarmList 0x70 (be 2 64) yard = some .badArg ∧ answer .alarmOverflowClear 0x73 [] yard = some (.ok, be 2 0) := by
  decide +kernel

/-! ## LPL and MOC -/

theorem test_witness_LanesPollAndJudge :
    let due (n : Nat) := yard.updLane .door fun x => { x with polling := .polled, roundDue := n }
    let position (t : State) := (t.laneRec .door).position
    let missed (m : Nat) (s : State) := after (.missedPoll .door []) (fun t => ((t.station (.door 0)).link, t.alt.records.length))
      (polls (.door 0) .heard (s.updStation (.door 0) fun x => { x with missed := m }))
    let rep : Report := .door { leaf := .closed, sealOk := true, trailer := true, stationFault := 0 }
    yard.configuredStations .door = [.door 0, .door 1, .door 2]
    ∧ after (.laneRound .door) position (due 0) = some (some (.door 0)) ∧ after (.laneRound .door) position (due 1) = some none
    ∧ after (.laneRound .door) (fun t => (t.laneRec .door).owed) (polls (.door 0) .heard yard) = some 1
    ∧ missed 1 yard = some (.heard, 0) ∧ missed 2 yard = some (.lost, 1) ∧ missed 2 (site .holdover) = some (.lost, 0)
    ∧ after (rep.row (answerBytes (.door 0) 3#8 rep)) (fun t => (t.station (.door 0)).link) (polls (.door 0) .lost yard) = some .heard := by
  decide +kernel
theorem test_witness_SiteRequestsAnswer :
    let s := site .standby
    let failed (s : State) := s.withMoc { s.moc with supplyFail := true }
    let stopped (n : Nat) := s.withMoc { s.moc with stoppedAt := some n }
    let quiet := (bare .run).withMoc { (bare .run).moc with modeSince := 970 }
    let held := s.updEvap 0 fun x => { x with allowanceHeld := true }
    answer .siteSet 0x04 ([1] ++ be 4 4294967295 ++ [1] ++ be 2 4) s = some (.ok, be 4 4294967295 ++ be 2 4)
    ∧ answer .siteSet 0x04 ([0] ++ be 4 0 ++ [0] ++ be 2 0) s = some (.ok, be 4 1000 ++ be 2 2)
    ∧ result .siteSet 0x04 ([0] ++ be 4 0 ++ [1] ++ be 2 5) s = some .badArg
    ∧ result .siteSet 0x04 ([0] ++ be 4 0 ++ [1] ++ be 2 1) (held.updEvap 1 fun x => { x with allowanceHeld := true }) = some .busy
    ∧ result (.startSite Block.all) 0x05 [] s = some .accepted ∧ result (.startSite Block.all) 0x05 [] (failed s) = some .supply
    ∧ result (.startSite Block.all) 0x05 [] (stopped 970) = some .accepted
    ∧ result (.startSite Block.all) 0x05 [] (stopped 971) = some .tooSoon
    ∧ result (.stopSite Block.all) 0x06 [] quiet = some .ok
    ∧ result (.stopSite Block.all) 0x06 [] (quiet.withMoc { quiet.moc with modeSince := 971 }) = some .tooSoon
    ∧ result (.stopSite Block.all) 0x06 [] yard = some .busy ∧ result .readMode 0x07 [] yard = some .ok := by decide +kernel
theorem test_witness_SupplyLinesChangeTheMode :
    let mode (t : State) := t.mode
    let with_ (m : Mode) (sf bl : Bool) (rem : Option Mode) : State :=
      (site m).withMoc { (site m).moc with supplyFail := sf, batteryLow := bl, remembered := rem }
    let fails (m : Mode) (bl : Bool) := after (.supplyFailActive Block.all) mode (with_ m false bl none)
    let back (m : Mode) (rem : Option Mode) := after (.supplyFailInactive Block.all) mode (with_ m true false rem)
    fails .run false = some .holdover ∧ fails .checking false = some .standby ∧ fails .standby false = some .standby
    ∧ fails .run true = some .retain ∧ fails .retain false = some .retain ∧ back .holdover none = some .run
    ∧ back .retain (some .holdover) = some .run ∧ back .retain (some .standby) = some .standby ∧ back .standby none = some .standby
    ∧ after (.batteryLowActive Block.all) mode (with_ .holdover true false none) = some .retain
    ∧ after (.batteryLowActive Block.all) mode yard = some .run
    ∧ after .batteryLowInactive (fun t => t.moc.batteryLow) (with_ .run false true none) = some false
    ∧ after (.supplyFailActive Block.all) mode (with_ .run true false none) = some .run
    ∧ after (.supplyFailInactive Block.all) mode yard = some .run := by decide +kernel
theorem test_witness_SelfCheckAndRestart :
    let m := (site .checking).moc
    let checks (s : State) := s.withMoc { m with checksDue := true }
    let called (s : State) := [Lane.door, .probe, .evap, .term].foldl (fun u l => u.updLane l fun x => { x with polling := .rollCall }) s
    let limit (n : Nat) := (site .checking).withMoc { m with rollCallDue := some n }
    let moc (t : State) := (t.mode, t.moc.selfCheck)
    (site .checking).firstFailure = none ∧ State.reset.firstFailure = some 1
    ∧ after (.consistencyChecks Block.all) (fun t => t.moc.rollCallDue) (checks (site .checking)) = some (some 1010)
    ∧ after (.consistencyChecks Block.all) moc ((checks (site .checking)).updEvap 0 fun x => { x with cfg := { x.cfg with room := 7 } })
      = some (.standby, .configInvalid 4)
    ∧ after (.rollCallCompletion Block.all) moc (called (site .checking)) = some (.run, .passed)
    ∧ after (.rollCallCompletion Block.all) moc (site .checking) = some (.checking, .none)
    ∧ after (.rollCallLimitExpiry Block.all) moc (limit 1000) = some (.standby, .rollCallTimeout)
    ∧ after (.rollCallLimitExpiry Block.all) moc (limit 1001) = some (.checking, .none)
    ∧ after (.warmRestart false false Block.all) (fun t => (t.mode, (t.door 1).state, t.lkp.reasons.warmRestart)) yard
      = some (.standby, .offline, true)
    ∧ after (.warmRestart false false Block.all) (fun t => t.lkp.pendingCauses.supply) yard = some false
    ∧ after (.warmRestart false false Block.all) (fun t => t.lkp.pendingCauses.supply)
      ((site .checking).withMoc { m with selfCheck := .inProgress }) = some true := by decide +kernel

/-! ## Further clauses at their boundaries -/

/-- An exchange runs: what it shifts out, and whether that is an answer. -/
def exchanging (ready : Bool) (out : List Byte) (isAnswer : Bool) (s : State) : State :=
  s.withLkp { s.lkp with exchange := some { ready := ready, out := out, answer := isAnswer } }
/-- Answers wait, and both queues are full. -/
def crowded (answers : Nat) : State :=
  yard.withLkp { yard.lkp with
    urgent := List.replicate 8 (frame 0x07 []), normal := List.replicate 24 (frame 0x07 [])
    answers := List.replicate answers { tag := 1, code := 0x07, result := .ok, results := [] } }
theorem test_witness_ExchangesDeliverAndJudge_full :
    let req := (frame 0x07 []).bytes
    let ends (n : Nat) (urgent : Bool) := after (.exchangeEnd (req urgent))
      (fun t => (t.lkp.answers.length, t.lkp.reasons.notReady, t.lkp.discards)) (exchanging true [] false (crowded n))
    ends 15 true = some (16, false, 0) ∧ ends 15 false = some (16, false, 0)
    ∧ ends 16 true = some (16, true, 1) ∧ ends 16 false = some (16, true, 1) := by decide +kernel
theorem test_witness_ExchangesDeliverAndJudge_shifted :
    let ends (bs : List Byte) := after (.exchangeEnd bs) (fun t => (t.lkp.shifted, t.lkp.answers.length, t.lkp.exchange.isSome))
      (exchanging true [0xA5, 7] true (crowded 3))
    ends [0xFF, 0, 0, 0] = some ([0xA5, 7, 0, 0], 2, false) ∧ ends [0xFF, 0] = some ([0xA5, 7], 2, false)
    ∧ ends [0xFF] = some ([0xA5], 3, false)
    ∧ after .exchangeBegin (fun t => t.lkp.exchange) (exchanging false [1] true yard)
      = some (some { ready := false, out := [1], answer := true })
    ∧ after (.exchangeEnd [0x12]) (fun t => (t.lkp.discards, t.lkp.shifted)) yard = some (0, []) := by decide +kernel

/-- Every request's row with its code. -/
def requestRows : List Instr :=
  [.readIdent, .readAttention, .attentionMask, .siteSet, .startSite Block.all, .stopSite Block.all, .readMode, .linkReset, .roomSet,
    .slotMapSet, .roomRead, .roomCount, .slotRead, .slotBlock, .laneRead, .classSet, .admission, .findTag, .palletRead, .census, .holdSet]
  ++ [.holdClear, .retire, .placeCorrect, .move, .moveBatch, .moveCancel, .moveRedirect, .moveRead, .moveCollect, .dispatchHold,
    .terminalSet, .terminalRead, .doorSet, .doorSeal, .doorOpen, .doorClose, .doorRelease, .doorRead, .doorClearFault]
  ++ [.probeSet, .thermalSet, .roomTempRead, .probeRead, .evapSet, .defrostRequest, .defrostAbort, .evapRelease, .evapRead, .alarmList,
    .alarmAck, .alarmRead, .alarmOverflowClear]
/-- Whether a request is answered as its group says in a mode that does not allow it; true where the mode allows it. -/
def turnedAway (m : Mode) (c : Instr) : Bool :=
  match requestCode c with
  | none => false
  | some code =>
    match (groupOf code).bind (·.refusal m) with
    | some rc => result c code [] (site m) == some rc
    | none => true
theorem test_witness_UnavailableRequestAnswered_rows : requestRows.length = 53
    ∧ (allModes.map fun m => (requestRows.filter fun c => decide (((requestCode c).bind groupOf).bind (·.refusal m) ≠ none)).length)
      = [13, 31, 9, 23, 31]
    ∧ ∀ m ∈ allModes, ∀ c ∈ requestRows, turnedAway m c = true := by decide +kernel

theorem test_witness_FramesAndAnswersReadBack_refused :
    let body : List Byte := [0xA5, 7, 0, 0x07, 0]
    let door : DoorReport := { leaf := .closed, sealOk := true, trailer := true, stationFault := 0 }
    let bs := answerBytes (.door 0) 3#8 (.door door)
    let wire (st : StationId) (body : List Byte) := judgeAnswer st 3#8 (body ++ be 2 (crc body).toNat)
    judgeFrame [] = .fill ∧ judgeFrame [0x00, 1] = .fill ∧ judgeFrame [0xFF] = .fill ∧ judgeFrame [0x5A, 1] = .bad
    ∧ judgeFrame [0xA5, 7, 0, 0x07, 0] = .bad ∧ judgeFrame ([0xA5, 7, 2, 0x07, 0] ++ be 2 (crc [0xA5, 7, 2, 0x07, 0]).toNat) = .bad
    ∧ judgeFrame ([0xA5, 7, 0, 0x07, 201] ++ List.replicate 203 0) = .bad ∧ judgeFrame (body ++ [1] ++ be 2 0) = .bad
    ∧ judgeFrame ([0xA5, 7, 0, 0x07, 3] ++ [1, 1, 1, 1]) = .bad
    ∧ judgeFrame (body ++ be 2 (crc body).toNat) = .request false (frame 0x07 [])
    ∧ judgeAnswer (.door 0) 3#8 bs = some (.door door) ∧ judgeAnswer (.door 1) 3#8 bs = none ∧ judgeAnswer (.door 0) 4#8 bs = none
    ∧ judgeAnswer (.door 0) 3#8 (bs ++ [0]) = none ∧ judgeAnswer (.door 0) 3#8 (bs.dropLast ++ [0]) = none
    ∧ wire (.door 0) (bs.dropLast.dropLast) = some (.door door) ∧ wire (.door 0) (bs.dropLast.dropLast ++ [0]) = none
    ∧ wire (.door 0) [0, 3, 0x7F, 0] = none ∧ wire (.door 0) [] = none := by decide +kernel

theorem test_witness_ReadAttention_contents :
    let s := yard.withLkp { yard.lkp with
      pendingCauses := { alarm := true, door := true, defrost := true, room := true, link := true, move := true }
      masks := { alarm := true }, doorSet := [0, 23], defrostSet := [11], roomSet := [7], discards := 255 }
    s.topCause = some .door ∧ s.causeContents .door = [2] ++ be 2 0 ++ be 2 23 ∧ s.causeContents .defrost = [1] ++ be 2 11
    ∧ s.causeContents .room = [1] ++ be 2 7 ∧ s.causeContents .link = [s.lkp.reasons.byte, 0, 255]
    ∧ (s.withLkp { s.lkp with masks := { alarm := true, door := true, defrost := true, move := true, room := true, link := true } }).topCause
      = none
    ∧ result .readAttention 0x02 [7] s = some .ok ∧ result .readAttention 0x02 [8] s = some .badArg
    ∧ result .readAttention 0x02 [255] s = some .badArg := by decide +kernel
theorem test_cold_start_line_found_active :
    let line (sf bl : Bool) := after (.coldStart .terminal sf bl Block.all)
      (fun t => (t.mode, [t.moc.supplyFail, t.moc.batteryLow, t.lkp.pendingCauses.supply], t.alt.records.length)) yard
    line false false = some (.standby, [false, false, false], 0) ∧ line true false = some (.standby, [true, false, true], 1)
    ∧ line false true = some (.standby, [false, true, true], 0) ∧ line true true = some (.retain, [true, true, true], 1) := by
  decide +kernel

/-- A table that lists every number of a range reads as listed there. -/
theorem sget_range' {α : Type} (d : α) (v : Nat → α) : ∀ (n a k : Nat), a ≤ k → k < a + n →
    sget d ((List.range' a n).map fun i => (i, v i)) k = v k
  | 0, _, _, _, h => absurd h (by omega)
  | n + 1, a, k, h, hk => by
    rw [List.range'_succ, List.map_cons, sget]
    split
    · rename_i e; rw [e]
    · rename_i e; exact sget_range' d v n (a + 1) k (by omega) (by omega)
/-- The first pallet entries are live, and no tag but 5 stands in them. -/
def fullTable (n : Nat) : State := yard.withCtb { yard.ctb with
  entries := (List.range' 0 n).map fun i => (i, { rec? := some (load 5 (.floor 1) none) }) }
theorem fullTable_entry {n k : Nat} (hk : k < n) :
    (handed (fullTable n)).entry k = { rec? := some (load 5 (.floor 1) none) } :=
  sget_range' ({} : PalletEntry) (fun _ => ({ rec? := some (load 5 (.floor 1) none) } : PalletEntry)) n 0 k (Nat.zero_le k) (by omega)
theorem fullTable_findTag (n : Nat) : (handed (fullTable n)).findTag (BitVec.ofNat 48 33) = none := by
  unfold State.findTag
  rw [Option.map_eq_none_iff, List.find?_eq_none]
  intro x hx
  rw [State.tagIndex, mem_sortBy, List.mem_map] at hx
  obtain ⟨y, hy, rfl⟩ := hx
  rw [State.livePallets, List.mem_filterMap] at hy
  obtain ⟨z, hz, he⟩ := hy
  obtain ⟨i, _, rfl⟩ := List.mem_map.1 hz
  cases he
  show ¬decide ((BitVec.ofNat 48 5 : Tag) = BitVec.ofNat 48 33) = true
  decide
theorem test_witness_AdmitCreatesTheRecord_full : let args := be 6 33 ++ be 2 0 ++ be 2 0
    let s := fullTable 2048
    HandsOff 0x21 (frame 0x21 args) (asks 0x21 args s) (handed s) ∧ ((handed s).cls 0).budget ≠ 0
    ∧ (handed s).findTag (BitVec.ofNat 48 33) = none ∧ (handed s).freeEntry = none := by
  refine ⟨asks_handsOff (g := .run) rfl rfl, by decide +kernel, fullTable_findTag 2048, ?_⟩
  rw [State.freeEntry, findUp_none]
  intro k _ hk
  rw [fullTable_entry (by simpa [Config.palletEntries] using hk)]
  rfl
/-- Every order entry is taken by a finished order. -/
def fullOrders (s : State) : State :=
  let done (i : Nat) : Order :=
    { pallet := h0, origin := .slot 0, dest := .lane 1, priority := .normal, state := .finished, terminal := none, routeDoor := none
      createdAt := 950, finishedAt := some 960, outcome := some .done, seqNo := i }
  s.withMds { s.mds with entries := (List.range 128).map fun i => (i, { rec? := some (done i) }) }
/-- No slot of room 1 is free. -/
def fullRoom (s : State) : State := ((s.setSlot 1 .blocked).setSlot 2 .blocked).setSlot 3 .blocked
theorem test_witness_tables_full :
    let slot (t : State) := (t.station (.term 0)).slot
    result .move 0x30 (be 2 0 ++ lane1 ++ [0]) (fullOrders yard) = some .tableFull
    ∧ answer .moveBatch 0x31 ([2] ++ be 2 0 ++ be 2 0 ++ [2, 1, 0] ++ lane1 ++ floor1 ++ [0]) (fullOrders yard)
      = some (.ok, be 2 0 ++ [2, ResultCode.tableFull.byte, 0xFF, 0xFF, ResultCode.tableFull.byte, 0xFF, 0xFF])
    ∧ hears (.term 0) (.submit 9) slot (fullOrders yard) = some (some (.term (.refuse .tableFull)))
    ∧ hears (.term 0) (.submit 9) slot (fullRoom yard) = some (some (.term (.refuse .destFull))) := by decide +kernel
theorem test_witness_malformed_bytes : result .move 0x30 (be 2 0 ++ lane1 ++ [2]) yard = some .badArg
    ∧ result .dispatchHold 0x36 [0, 2] yard = some .badArg ∧ result .dispatchHold 0x36 [0xFF, 0xFF] yard = some .badArg
    ∧ result .terminalSet 0x37 (be 2 0 ++ [2]) (site .standby) = some .badArg
    ∧ result .doorSeal 0x41 (be 2 2 ++ be 4 77 ++ [2] ++ be 2 60) yard = some .badArg
    ∧ result .doorClose 0x43 (be 2 1 ++ [2]) yard = some .badArg := by decide +kernel
theorem test_witness_DoorOpenCloseRelease_forced :
    result .doorOpen 0x42 (be 2 0) (yard.updHold 0 fun h => { h with state := .forcedPending }) = some .defrostHold
    ∧ result .doorOpen 0x42 (be 2 0) (yard.updHold 0 fun h => { h with state := .waiting }) = some .accepted := by decide +kernel
/-- Terminal 0 is OFFLINE, with what is bound to it and what is to be revoked. -/
def off (bound revoke : Option OrderId) (s : State) : State :=
  s.updTerminal 0 fun x => { x with state := .offline, bound := bound, revokeDue := revoke }
theorem test_witness_terminals_offline_and_heard :
    let slot (t : State) := (t.station (.term 0)).slot
    let state (t : State) := (t.terminal 0).state
    let carries := off (some o0) none (busy .carrying .carrying)
    let waits := off none none (busy .queued .idle)
    hears (.term 0) (.dropped (Place.lane 1).code) (fun t => t.mds.finished) carries = some [o0]
    ∧ hears (.term 0) (.dropped (Place.floor 1).code) slot carries = some (some (.term (.refuse .dropMismatch)))
    ∧ hears (.term 0) (.abandon 1) (fun t => t.floor 1) carries = some [h0]
    ∧ hears (.term 0) (.picked 5 (Place.slot 0).code) (fun t => (state t, t.moc.clock)) waits = some (.carrying, 1000)
    ∧ hears (.term 0) (.submit 9) slot waits = some (some (.term (.refuse .state)))
    ∧ hears (.term 0) (.submit 9) (fun t => (t.orderEntry 0).rec?.isSome) (off none none yard) = some true
    ∧ hears (.term 0) (.ready true) (fun t => (state t, (t.terminal 0).handsFull)) (off none none yard) = some (.idle, true) := by
  decide +kernel
/-- Terminal 1 waits and the one QUEUED order can be granted; terminal 0, hands-full, is heard again with a SUBMIT. The pass at its
rehearing grants the order, which stops the interval; the SUBMIT's order starts it anew. -/
theorem test_retry_starts_anew_within_a_command :
    let s := ((off none none (busy .queued .idle)).updTerminal 0 fun x => { x with handsFull := true }).updTerminal 1 fun x =>
      { x with enabled := true, state := .idle, idleSince := 900 }
    hears (.term 0) (.submit 9) (fun t => (t.mds.retryDue, (t.terminal 1).bound, t.queue .normal))
      (s.withMds { s.mds with nextSeq := 1, retryDue := some 1000 }) = some (some 1001, some o0, [{ index := 1, gen := 0 }]) := by
  decide +kernel

theorem test_witness_eligible_orders :
    let s := busy .queued .idle
    let route (d : Fin 24) := s.updOrder o0 fun x => { x with dest := .atDoor d, routeDoor := some d }
    let fromLane (h : Handle) := s.updOrder o0 fun x => { x with pallet := h, origin := .lane 1 }
    let again : OrderId := { index := 1, gen := 0 }
    let two (p : Priority) := s.setOrderEntry 1 { rec? := (s.order? o0).map fun x => { x with priority := p, seqNo := 1 } }
    (route 1).eligible o0 = true ∧ (route 0).eligible o0 = false
    ∧ ((route 1).updDoor 1 fun x => { x with useList := List.replicate 16 o0 }).eligible o0 = false
    ∧ (fromLane h1).eligible o0 = true ∧ (fromLane h0).eligible o0 = false ∧ (busy .granted .granted).eligible o0 = false
    ∧ (s.withMoc { s.moc with mode := .holdover }).eligible o0 = false
    ∧ (two .normal).queue .normal = [o0, again] ∧ (two .urgent).queue .normal = [o0] ∧ (two .urgent).queue .urgent = [again]
    ∧ (syncRetry s).mds.retryDue = some 1001 ∧ (syncRetry (s.withMds { s.mds with retryDue := some 7 })).mds.retryDue = some 7
    ∧ (syncRetry (yard.withMds { yard.mds with retryDue := some 7 })).mds.retryDue = none := by decide +kernel

/-- Door 0 OFFLINE with a remembered state, a session or none, and a report. -/
def returns (st : DoorState) (y : Option Session) (r : DoorReport) : Option (DoorState × Option StationCmd) :=
  hears (.door 0) (.door r) (fun t => ((t.door 0).state, (t.station (.door 0)).slot))
    (yard.updDoor 0 fun x => { x with state := .offline, remembered := some st, session := y })
theorem test_witness_reconciliation :
    let good : DoorReport := { leaf := .closed, sealOk := true, trailer := true, stationFault := 0 }
    let here := some (trailer .inbound)
    let stops := some (StationCmd.door .stop)
    let deflates := some (StationCmd.door .deflate)
    returns .opened here { good with leaf := .opened } = some (.opened, none) ∧ returns .opened here good = some (.fault, stops)
    ∧ returns .sealed here good = some (.sealed, none) ∧ returns .sealed here { good with sealOk := false } = some (.fault, stops)
    ∧ returns .arrived none good = some (.arrived, deflates) ∧ returns .arrived none { good with leaf := .moving } = some (.fault, stops)
    ∧ returns .arrived none { good with trailer := false, sealOk := false } = some (.vacant, none)
    ∧ returns .arrived none { good with trailer := false } = some (.vacant, deflates)
    ∧ returns .vacant none good = some (.arrived, none) ∧ returns .vacant none { good with trailer := false } = some (.vacant, none)
    ∧ returns .vacant none { good with stationFault := 9 } = some (.fault, stops) := by decide +kernel
theorem test_witness_reconciliation_moving :
    let good : DoorReport := { leaf := .closed, sealOk := true, trailer := true, stationFault := 0 }
    let here := some (trailer .inbound)
    ∀ st ∈ [DoorState.sealing, .opening, .closing, .unsealing],
      returns st here good = some (.sealed, none) ∧ returns st none good = some (.arrived, some (.door .deflate))
      ∧ returns st here { good with sealOk := false } = some (.arrived, none)
      ∧ returns st here { good with trailer := false } = some (.vacant, none)
      ∧ returns st here { good with leaf := .opened } = some (.fault, some (.door .stop)) := by decide +kernel
theorem test_witness_reconciliation_fault : returns .fault (some (trailer .inbound)) {} = some (.fault, none) := by decide +kernel
theorem test_witness_doors_fault_and_trailers_go :
    let door (t : State) := ((t.door 1).state, (t.door 1).openSince, (t.door 1).session.map (·.openSeconds))
    let loaded (dir : Direction) (d : Fin 24) := ((yard.updDoor d fun x => { x with session := some (trailer dir) }).updPallet h0 fun p =>
      { p with place := .atDoor d }).updDoorPallets d fun _ => [h0]
    let named := (busy .queued .idle).updOrder o0 fun x => { x with dest := .atDoor 2, routeDoor := some 2 }
    door (enterFault 1 .sealLost yard) = (.fault, none, some 10)
    ∧ (enterFault 1 .sealLost yard).alt.records.map (·.kind) = [.doorFault]
    ∧ (enterFault 1 .trailerLost yard).alt.records.map (·.kind) = [.doorFault, .trailerLost]
    ∧ (let t := trailerGone 2 (loaded .outbound 2)
      ((t.door 2).state, (t.door 2).session, (t.door 2).outcome, t.pallet? h0) = (.vacant, none, .leftOnTrailer 1, none))
    ∧ ((unsealComplete 0 (loaded .outbound 0)).door 0).outcome = .released 1
    ∧ (unsealComplete 0 (loaded .outbound 0)).pallet? h0 = none
    ∧ ((unsealComplete 0 (loaded .inbound 0)).door 0).outcome = .released 0
    ∧ ((unsealComplete 0 (loaded .inbound 0)).pallet? h0).isSome = true
    ∧ ((trailerGone 2 named).order? o0).map (·.outcome) = some (some .withdrawnTrailerGone) := by decide +kernel

theorem test_witness_charges_and_stale_alarms :
    let table (t : Temp) : Vector (Option Temp) 8 := (Vector.replicate 8 none).set 1 (some t)
    let p := load 5 (.slot 0) none
    let carried := load 5 (.carried o0) (some o0)
    let two := busy .carrying .carrying
    yard.chargeAmount (table (-179)) p = 1 ∧ yard.chargeAmount (table (-180)) p = 0 ∧ yard.chargeAmount (table (-500)) p = 0
    ∧ yard.chargeAmount (Vector.replicate 8 none) p = 20 ∧ yard.chargeAmount (table 0) { p with place := .atDoor 0 } = 0
    ∧ yard.chargeAmount (table 0) { p with place := .slot 100 } = 0 ∧ two.chargeAmount (table (-170)) carried = 20
    ∧ two.chargeAmount (table (-100)) carried = 80 ∧ yard.chargeAmount (table 0) { p with place := .floor 1 } = 180
    ∧ tableEntry { (yard.thermal 1) with state := .excursion, temp := 3 } = some 3
    ∧ tableEntry { (yard.thermal 1) with state := .stale } = none := by decide +kernel
theorem test_witness_unwatched_and_stale :
    let stale (since : Nat) (raised : Bool) := yard.updThermal 1 fun x =>
      { x with state := .stale, staleSince := some since, staleDue := some (since + 120), staleRaised := raised }
    let alarms (t : State) := t.alt.records.map fun r => (r.kind, r.state)
    let warm : State := raiseAlarm .roomWarm (.room 1) none yard
    alarms (evaluateRoom 1 (stale 880 false)) = [(.roomStale, .raised)] ∧ alarms (evaluateRoom 1 (stale 880 true)) = []
    ∧ alarms (evaluateRoom 1 (stale 881 false)) = []
    ∧ alarms (evaluateRoom 1 (warm.withPdr { warm.pdr with kind := warm.pdr.kind.set 1 .unused })) = [(.roomWarm, .cleared)]
    ∧ alarms (evaluateRoom 1 (warm.withMoc { warm.moc with mode := .standby })) = [(.roomWarm, .raised)]
    ∧ ((evaluateRoom 1 (site .standby)).thermal 1).state = .unwatched := by decide +kernel

/-- One station of the lane is left to poll, and rounds are owed. -/
def lastPoll (owed : Nat) : State := (polls (.door 0) .heard yard).updLane .door fun x => { x with todo := [], owed := owed }
theorem test_witness_owed_rounds :
    let lane (t : State) := ((t.laneRec .door).position, (t.laneRec .door).todo, (t.laneRec .door).owed)
    lane (pollEnded .door (lastPoll 0)) = (none, [], 0)
    ∧ lane (pollEnded .door (lastPoll 2)) = (some (.door 0), [.door 1, .door 2], 1)
    ∧ lane (pollEnded .door ((lastPoll 2).updLane .door fun x => { x with todo := [.door 2] })) = (some (.door 2), [], 2)
    ∧ lane (pollEnded .door ((lastPoll 2).updLane .door fun x => { x with polling := .stopped })) = (none, [], 2) := by
  decide +kernel
theorem test_witness_doors_lost :
    let lost (d : Fin 24) := ownerLost (.door d) yard
    let door (d : Fin 24) (t : State) := ((t.door d).state, (t.door d).remembered, (t.station (.door d)).slot)
    door 0 (lost 0) = (.offline, some .sealed, some (.door .stop)) ∧ door 1 (lost 1) = (.offline, some .opened, some (.door .stop))
    ∧ ((lost 1).door 1).session.map (·.openSeconds) = some 10 ∧ ((lost 1).door 1).openSince = none
    ∧ ownerLost (.door 0) (lost 0) = lost 0 ∧ ownerHeard (.door 0) yard = yard := by decide +kernel
theorem test_witness_hubs_lost :
    let fitted (st : ProbeStatus) := yard.updProbe 4 fun x => { x with fitted := true, status := st }
    let lost (st : ProbeStatus) :=
      let t := ownerLost (.hub 1) (fitted st)
      ((t.probe 4).status, (t.probe 5).status, t.alt.records.map (·.kind), (t.thermal 1).state)
    lost .ok = (.silent, .absent, [.probeFault], .stale) ∧ lost .silent = (.silent, .absent, [], .stale) := by decide +kernel
theorem test_witness_evaporators_lost_and_heard :
    let at_ (p : Phase) (held : Bool) := yard.updEvap 0 fun x =>
      { x with phase := p, demandSince := some 990, allowanceHeld := true, holdConfirmed := held }
    let lost (p : Phase) := let t := ownerLost (.evap 0) (at_ p true)
      ((t.evap 0).phase, (t.evap 0).lost, (t.evap 0).allowanceHeld, t.alt.records.map (·.kind))
    let heard (p : Phase) (held : Bool) := let t := ownerHeard (.evap 0) (at_ p held)
      ((t.evap 0).phase, (t.evap 0).lost, (t.evap 0).deferralDue)
    lost .idle = (.idle, true, true, []) ∧ lost .heat = (.fault, true, true, [.defrostStuck])
    ∧ lost .allotted = (.demanded, true, false, []) ∧ heard .fault true = (.drip, false, none)
    ∧ heard .fault false = (.allotted, false, some 3690) ∧ heard .refreeze true = (.refreeze, false, none)
    ∧ (heard .demanded false).1 = .pumpdown := by decide +kernel
/-- Terminal 0: its state, what is bound and what is to be revoked, and its command. -/
def term (t : State) : TermState × Option OrderId × Option OrderId × Option StationCmd :=
  ((t.terminal 0).state, (t.terminal 0).bound, (t.terminal 0).revokeDue, (t.station (.term 0)).slot)
theorem test_witness_terminals_lost :
    term (ownerLost (.term 0) yard) = (.offline, none, none, none)
    ∧ term (ownerLost (.term 0) (busy .carrying .carrying)) = (.offline, some o0, none, none)
    ∧ term (ownerLost (.term 0) (busy .granted .granted)) = (.offline, none, some o0, none)
    ∧ ((ownerLost (.term 0) (busy .granted .granted)).order? o0).map (·.state) = some .queued := by decide +kernel
theorem test_witness_terminals_heard :
    term (ownerHeard (.term 0) (off none none yard)) = (.idle, none, none, none)
    ∧ term (ownerHeard (.term 0) (off none (some o0) yard)) = (.idle, none, none, some (.term (.revoke o0)))
    ∧ term (ownerHeard (.term 0) (off (some o0) none (busy .carrying .carrying)))
      = (.carrying, some o0, none, some (.term (.divert o0 (.lane 1)))) := by decide +kernel

/-- What MDS does at a mode change, seen at terminal 0. -/
def tellsMds (left entered : Mode) (s : State) : TermState × Option OrderId × Option OrderId × Option StationCmd :=
  term (blockNotice left entered .mds s)
theorem test_witness_mode_notices_to_mds :
    let granted := busy .granted .granted
    tellsMds .run .standby yard = (.offline, none, none, none)
    ∧ tellsMds .run .standby granted = (.offline, none, none, some (.term (.revoke o0)))
    ∧ tellsMds .run .retain granted = (.offline, none, some o0, none)
    ∧ tellsMds .run .holdover granted = (.idle, none, none, some (.term (.revoke o0))) := by decide +kernel
theorem test_witness_mode_notices_to_mds_kept :
    tellsMds .holdover .standby (busy .carrying .carrying) = (.offline, some o0, none, none)
    ∧ (tellsMds .holdover .run (busy .queued .idle)).1 = .granted
    ∧ tellsMds .standby .checking (busy .granted .granted) = (.granted, some o0, none, none) := by decide +kernel
/-- What TSU does at a mode change: the probe, the accrual times, and the charge of pallet 0. -/
def tellsTsu (last : Nat) (left entered : Mode) : ProbeStatus × Nat × Option Nat × Option Nat :=
  let s := yard.updProbe 4 fun x => { x with fitted := true, status := .ok, counted := true }
  let t := blockNotice left entered .tsu (s.withTsu { s.tsu with lastAccrual := last, accrualDue := some 1030 })
  ((t.probe 4).status, t.tsu.lastAccrual, t.tsu.accrualDue, (t.pallet? h0).map (·.exposure))
theorem test_witness_mode_notices_to_tsu : tellsTsu 970 .run .standby = (.silent, 970, none, some 0)
    ∧ tellsTsu 970 .run .retain = (.silent, 970, none, some 0) ∧ tellsTsu 970 .standby .checking = (.ok, 970, none, some 0)
    ∧ tellsTsu 970 .run .holdover = (.ok, 970, some 1030, some 0) := by decide +kernel
theorem test_witness_gap_rule : tellsTsu 970 .checking .run = (.ok, 970, some 1030, some 0)
    ∧ tellsTsu 880 .checking .run = (.ok, 1000, some 1060, some 40) ∧ tellsTsu 1001 .checking .run = (.ok, 1000, some 1060, some 0)
    ∧ tellsTsu 880 .holdover .run = (.ok, 1000, some 1030, some 40) := by decide +kernel
/-- What DFC does at a mode change: evaporator 0, the frost interval, and its command. -/
def tellsDfc (entered : Mode) (p : Phase) : Phase × Bool × Option Nat × Option StationCmd :=
  let s := yard.updEvap 0 fun x => { x with phase := p, demandSince := some 990, allowanceHeld := true }
  let t := blockNotice .run entered .dfc (s.withDfc { s.dfc with frostDue := some 1050 })
  ((t.evap 0).phase, (t.evap 0).allowanceHeld, t.dfc.frostDue, (t.station (.evap 0)).slot)
theorem test_witness_mode_notices_to_dfc : tellsDfc .holdover .allotted = (.demanded, false, none, none)
    ∧ tellsDfc .retain .heat = (.demanded, false, none, some (.evap .run))
    ∧ tellsDfc .holdover .refreeze = (.idle, true, none, some (.evap .run))
    ∧ tellsDfc .holdover .fault = (.fault, true, none, none) := by decide +kernel
theorem test_witness_mode_notices_to_dfc_kept : tellsDfc .standby .heat = (.heat, true, none, none)
    ∧ tellsDfc .checking .idle = (.idle, true, none, none) ∧ (tellsDfc .run .demanded).1 = .pumpdown
    ∧ tellsDfc .run .idle = (.idle, true, some 1060, none) := by decide +kernel
/-- Something of a station after a warm restart before which it held a command already sent. -/
def restarts {α : Type} (st : StationId) (link : LinkState) (c : StationCmd) (f : Station → α) : Option α :=
  after (.warmRestart false false Block.all) (fun t => f (t.station st))
    (yard.updStation st fun x => { x with link := link, missed := 2, seqNo := 3, slot := some c, slotSent := true })
theorem test_witness_warm_restart_links :
    restarts (.door 0) .heard (.door .inflate) (fun x => (x.link, x.missed)) = some (.unconfirmed, 0)
    ∧ restarts (.door 0) .lost (.door .inflate) (fun x => (x.link, x.seqNo)) = some (.lost, 3)
    ∧ restarts (.hub 7) .unconfirmed (.door .stop) (fun x => (x.link, x.seqNo)) = some (.unconfirmed, 3) := by decide +kernel
theorem test_witness_warm_restart_slots :
    restarts (.door 0) .heard (.door .inflate) (fun x => (x.slot, x.slotSent)) = some (some (.door .stop), false)
    ∧ restarts (.door 23) .heard (.door .inflate) (fun x => (x.slot, x.slotSent)) = some (none, false)
    ∧ restarts (.evap 0) .lost (.evap .heat) (fun x => (x.slot, x.slotSent)) = some (none, false)
    ∧ restarts (.term 0) .heard (.term (.revoke o0)) (fun x => (x.slot, x.slotSent)) = some (none, false) := by decide +kernel
theorem test_optional_argument : readOptional 0 0 = some none ∧ readOptional 0 1 = none ∧ readOptional 1 0 = some (some 0)
    ∧ readOptional 1 7 = some (some 7) ∧ readOptional 2 0 = none := by decide
theorem test_witness_absent_room_with_bytes :
    result .moveCancel 0x32 (be 2 0 ++ [0, 0, 1]) (busy .queued .idle) = some .badArg := by decide +kernel

/-! ## Arguments after the leading one, out of range -/

theorem test_witness_later_arguments_of_places :
    result .roomSet 0x10 (be 2 7 ++ [3]) (site .standby) = some .ok ∧ result .roomSet 0x10 (be 2 7 ++ [4]) (site .standby) = some .badArg
    ∧ result .slotMapSet 0x11 ([7] ++ [4, 4, 4, 4, 4, 4, 4].flatMap (be 2)) (site .standby) = some .badArg
    ∧ result .slotMapSet 0x11 ([9] ++ [0, 4, 4, 4, 4, 4, 4, 4].flatMap (be 2)) (site .standby) = some .badArg
    ∧ result .slotBlock 0x15 (be 2 3 ++ [2]) yard = some .badArg := by decide +kernel
theorem test_witness_later_arguments_of_custody :
    result .classSet 0x20 (be 2 0 ++ temp2 0 ++ be 2 1 ++ be 2 20 ++ be 2 8) (site .standby) = some .badArg
    ∧ result .admission 0x21 (be 6 33 ++ be 2 16 ++ be 2 0) yard = some .badArg
    ∧ result .admission 0x21 (be 6 33 ++ be 2 0 ++ be 2 24) yard = some .badArg
    ∧ result .moveCancel 0x32 (be 2 0 ++ [2, 0, 1]) (busy .queued .idle) = some .badArg := by decide +kernel
theorem test_witness_census_lists :
    let list (n : Byte) (len : Nat) := result .census 0x24 (n :: (List.replicate len (be 2 0)).flatten) yard
    result .census 0x24 [] yard = some .badArg ∧ list 0 0 = some .badArg ∧ list 1 1 = some .ok ∧ list 32 32 = some .ok
    ∧ list 33 33 = some .badArg ∧ list 1 2 = some .badArg ∧ list 2 1 = some .badArg
    ∧ result .census 0x24 [1, 0] yard = some .badArg := by decide +kernel
theorem test_witness_later_arguments_of_plant :
    let s := site .standby
    let door (room : Nat) (on : Byte) := result .doorSet 0x40 (be 2 2 ++ be 2 room ++ be 2 60 ++ [on]) s
    let evap (on : Byte) (room : Nat) := result .evapSet 0x60 (be 2 0 ++ [on] ++ be 2 room ++ be 2 120 ++ be 2 1800 ++ temp2 100
      ++ be 2 180 ++ be 2 300 ++ temp2 (-50) ++ be 2 45 ++ be 2 0 ++ be 2 0 ++ be 2 0) s
    door 0 1 = some .ok ∧ door 8 1 = some .badArg ∧ door 0 2 = some .badArg
    ∧ result .probeSet 0x50 (be 2 4 ++ [2, 0]) s = some .badArg ∧ result .probeSet 0x50 (be 2 4 ++ [0, 2]) s = some .badArg
    ∧ evap 1 1 = some .ok ∧ evap 2 1 = some .badArg ∧ evap 1 8 = some .badArg := by decide +kernel
theorem test_witness_later_arguments_of_site :
    let set (a : Byte) (c : Nat) (b : Byte) (n : Nat) := result .siteSet 0x04 ([a] ++ be 4 c ++ [b] ++ be 2 n) (site .standby)
    set 0 0 0 0 = some .ok ∧ set 2 0 0 0 = some .badArg ∧ set 0 0 2 1 = some .badArg ∧ set 0 1 0 0 = some .badArg
    ∧ set 0 0 0 1 = some .badArg := by decide +kernel

/-! ## Settings in use, deadlines of no effect, and what an evaluation changes -/

/-- New temperatures for evaporator 0, its configured flag and room unchanged. -/
def warmer (x : Evap) : Evap := { x with cfg := { x.cfg with termination := 200, fanStart := 20 } }
theorem test_witness_temperatures_in_use :
    let args := be 2 0 ++ [1] ++ be 2 1 ++ be 2 120 ++ be 2 1800 ++ temp2 200 ++ be 2 180 ++ be 2 300 ++ temp2 20 ++ be 2 45 ++ be 2 0
      ++ be 2 0 ++ be 2 0
    let kept := (site .standby).updEvap 0 fun x => { x with phase := .refreeze, deadline := some 2000 }
    after .evapSet (fun t => ((t.evap 0).cfg.fanStart, (t.evap 0).fanStartInUse)) (asks 0x60 args kept) = some (20, -50) := by decide +kernel
theorem test_witness_temperatures_in_use_judge :
    tells .refreeze (-49) false false ((inPhase .refreeze).updEvap 0 warmer) = some (.refreeze, some 2000, none)
    ∧ tells .refreeze (-50) false false ((inPhase .refreeze).updEvap 0 warmer) = some (.idle, none, some (.evap .run))
    ∧ tells .heat 100 true false ((inPhase .heat).updEvap 0 warmer) = some (.drip, some 1180, some (.evap .drip)) := by
  decide +kernel
theorem test_witness_temperatures_in_use_kept :
    tells .heat 99 true false ((inPhase .heat).updEvap 0 warmer) = some (.heat, some 2000, none) := by decide +kernel
theorem test_witness_temperatures_at_entry :
    let due (p : Phase) := (yard.updEvap 0 fun x => { x with phase := p, deadline := some 1000 }).updEvap 0 warmer
    let used (t : State) := ((t.evap 0).terminationInUse, (t.evap 0).fanStartInUse)
    after (.pumpdownDeadlineExpiry 0) used (due .pumpdown) = some (200, -50)
    ∧ after (.maxHeatExpiry 0) used (due .heat) = some (100, -50)
    ∧ after (.dripDeadlineExpiry 0) used (due .drip) = some (100, 20) := by decide +kernel
/-- Evaporator 0 in a phase with a deadline or none and a deferral deadline; whether a command leaves it and the attention as they are. -/
def noEvent (c : Instr) (p : Phase) (deadline deferral : Option Nat) : Bool :=
  let s := yard.updEvap 0 fun x => { x with phase := p, deadline := deadline, deferralDue := deferral }
  after c (fun t => (t.evap 0, t.lkp)) s = some (s.evap 0, s.lkp)
theorem test_witness_DefrostDeadlinesExpire_no_event :
    noEvent (.pumpdownDeadlineExpiry 0) .pumpdown none none ∧ noEvent (.pumpdownDeadlineExpiry 0) .heat (some 1000) none
    ∧ noEvent (.maxHeatExpiry 0) .heat none none ∧ noEvent (.maxHeatExpiry 0) .drip (some 1000) none
    ∧ noEvent (.dripDeadlineExpiry 0) .drip none none ∧ noEvent (.dripDeadlineExpiry 0) .refreeze (some 1000) none
    ∧ noEvent (.refreezeDeadlineExpiry 0) .refreeze none none ∧ noEvent (.refreezeDeadlineExpiry 0) .pumpdown (some 1000) none
    ∧ noEvent (.deferralExpiry 0) .demanded none none ∧ noEvent (.deferralExpiry 0) .heat none (some 1000)
    ∧ after .frostIntervalExpiry (fun t => (t.evap 0).frost) yard = some 0 := by decide +kernel
theorem test_witness_evaluation_clears_and_raises :
    let both := raiseAlarm .roomStale (.room 1) none (raiseAlarm .roomWarm (.room 1) none yard)
    let alarms (t : State) := t.alt.records.map fun r => (r.kind, r.state)
    let at_ (f : RoomThermal → RoomThermal) := alarms (evaluateRoom 1 (both.updThermal 1 fun x => f { x with known := true, temp := 5 }))
    at_ (fun x => { x with temp := 0 }) = [(.roomWarm, .cleared), (.roomStale, .cleared)]
    ∧ at_ (fun x => { x with state := .excursion }) = [(.roomWarm, .raised), (.roomStale, .cleared)]
    ∧ at_ id = [(.roomWarm, .raised), (.roomStale, .cleared)]
    ∧ (evaluateRoom 1 (yard.updThermal 1 fun x => { x with known := true, temp := 5, warmSince := some 400 })).alt.records.map
      (fun r => (r.kind, r.value)) = [(.roomWarm, some (.temp 5))] := by decide +kernel
theorem test_witness_evaluation_deadlines_and_cause :
    let warm (mask : Nat) := evaluateRoom 1 (yard.updThermal 1 fun x => { x with known := true, temp := 5, maskUntil := mask })
    let times (t : State) := ((t.thermal 1).graceEnd, (t.thermal 1).maskEnd, (t.thermal 1).staleDue)
    let room (t : State) := (t.lkp.roomSet, t.lkp.pendingCauses.room)
    times (warm 1000) = (some 1600, none, none) ∧ times (warm 1001) = (some 1600, some 1001, none)
    ∧ times (evaluateRoom 1 yard) = (none, none, some 1120) ∧ room (warm 1000) = ([1], true)
    ∧ room (evaluateRoom 1 (yard.updThermal 1 fun x => { x with state := .stale })) = ([], false) := by decide +kernel

/-! ## What a warm restart leaves -/

/-- Something of the state after a warm restart. -/
def restarted {α : Type} (f : State → α) (s : State) : Option α := after (.warmRestart false false Block.all) f s
theorem test_witness_warm_restart_orders :
    let order (t : State) := (t.order? o0).map fun x => (x.state, x.terminal)
    restarted order (busy .granted .granted) = some (some (.queued, none))
    ∧ restarted order (busy .carrying .carrying) = some (some (.carrying, some 0)) := by decide +kernel
theorem test_witness_warm_restart_terminals :
    let lane (t : State) := ((t.terminal 0).state, (t.terminal 0).bound, (t.terminal 0).revokeDue)
    restarted lane (busy .granted .granted) = some (.offline, none, some o0)
    ∧ restarted lane (busy .carrying .carrying) = some (.offline, some o0, none)
    ∧ restarted lane yard = some (.offline, none, none) := by decide +kernel
theorem test_witness_warm_restart_doors :
    let door (d : Fin 24) (t : State) :=
      ((t.door d).state, (t.door d).remembered, (t.door d).session.map (·.openSeconds))
    restarted (door 0) yard = some (.offline, some .sealed, some 0) ∧ restarted (door 1) yard = some (.offline, some .opened, some 10)
    ∧ restarted (door 23) yard = some (.vacant, none, none) := by decide +kernel
theorem test_witness_warm_restart_door_set :
    restarted (fun t => (t.lkp.doorSet, t.lkp.pendingCauses.door)) yard = some ([0, 1, 2], true)
    ∧ restarted (fun t => (t.lkp.doorSet, t.lkp.pendingCauses.door)) (bare .run) = some ([], false) := by decide +kernel
theorem test_witness_warm_restart_rooms :
    let probed := (yard.updProbe 4 fun x => { x with fitted := true, status := .ok, counted := true }).updThermal 1 fun x =>
      { x with known := true, temp := 5, state := .warm, warmSince := some 900, graceEnd := some 1500 }
    restarted (fun t => ((t.probe 4).status, (t.probe 4).counted, (t.probe 5).status)) probed = some (.silent, false, .absent)
    ∧ restarted (fun t => ((t.thermal 1).state, (t.thermal 1).known, (t.thermal 1).warmSince, (t.thermal 1).graceEnd)) probed
      = some (.unwatched, false, none, none)
    ∧ restarted (fun t => (t.lkp.roomSet, t.lkp.pendingCauses.room)) probed = some ([1], true) := by decide +kernel
theorem test_witness_warm_restart_evaporators :
    let evap (p : Phase) := restarted (fun t => ((t.evap 0).phase, (t.evap 0).deadline, t.lkp.defrostSet)) (inPhase p)
    evap .allotted = some (.fault, none, [0]) ∧ evap .drip = some (.fault, none, [0])
    ∧ evap .refreeze = some (.refreeze, some 2000, []) ∧ evap .demanded = some (.demanded, some 2000, []) := by decide +kernel
theorem test_witness_warm_restart_alarms :
    let alarms (t : State) := t.alt.records.map fun r => (r.kind, r.state)
    let longOpen (d : Fin 24) := raiseAlarm .doorOpenLong (.door d) none yard
    restarted alarms (longOpen 1) = some [(.doorOpenLong, .cleared)] ∧ restarted alarms (longOpen 0) = some [(.doorOpenLong, .raised)]
    ∧ restarted alarms (raiseAlarm .doorFault (.door 1) none yard) = some [(.doorFault, .raised)]
    ∧ restarted alarms (raiseAlarm .roomWarm (.room 7) none yard) = some [(.roomWarm, .cleared)]
    ∧ restarted alarms (raiseAlarm .roomWarm (.room 1) none yard) = some [(.roomWarm, .raised)] := by decide +kernel
theorem test_witness_door_reconciled_keeps_its_outcome :
    let good : DoorReport := { leaf := .closed, sealOk := true, trailer := true, stationFault := 0 }
    let back (st : DoorState) := hears (.door 0) (.door good) (fun t => ((t.door 0).state, (t.door 0).outcome))
      (yard.updDoor 0 fun x => { x with state := .offline, remembered := some st, outcome := .sealOk })
    back .closing = some (.sealed, .sealOk) ∧ back .sealing = some (.sealed, .sealOk) := by decide +kernel

end Sys2Proof.Tests
end

section
/-! SUPPORT. The request rows as hand-offs, said once for every row (R174, R175): the owner's reply of each row, the outcome of a row
whose request the owner takes, and the modes of each availability group. -/

namespace Sys2Proof.Machine

/-! ## The owner's reply of each request row -/

/-- What the owner of a request row answers to an argument list; the other rows have no owner. -/
def ownerReply : Instr → List Byte → State → Reply
  | .readIdent => noArgs (done identBytes)
  | .readAttention => readAttentionReply
  | .attentionMask => attentionMaskReply
  | .siteSet => siteSetReply
  | .startSite order => noArgs (startSite order)
  | .stopSite order => noArgs (stopSite order)
  | .readMode => noArgs fun s => done s.modeResults s
  | .linkReset => noArgs linkReset
  | .roomSet => roomSetReply
  | .slotMapSet => slotMapSetReply
  | .roomRead => oneFin 8 fun r s => done (s.roomResults r) s
  | .roomCount => oneFin 8 fun r s => done (s.roomCountResults r) s
  | .slotRead => slotReadReply
  | .slotBlock => slotBlockReply
  | .laneRead => oneFin 24 fun d s => done (s.laneResults d) s
  | .classSet => classSetReply
  | .admission => admitReply
  | .findTag => findTagReply
  | .palletRead => oneHandle fun _ p s => done (s.palletResults p) s
  | .census => censusReply
  | .holdSet => holdSetReply
  | .holdClear => holdClearReply
  | .retire => oneHandle retire
  | .placeCorrect => placeCorrectReply
  | .move => moveReply
  | .moveBatch => moveBatchReply
  | .moveCancel => moveCancelReply
  | .moveRedirect => moveRedirectReply
  | .moveRead => moveReadReply
  | .moveCollect => noArgs moveCollect
  | .dispatchHold => dispatchHoldReply
  | .terminalSet => terminalSetReply
  | .terminalRead => oneFin 16 fun t s => done (s.terminal t).results s
  | .doorSet => doorSetReply
  | .doorSeal => doorSealReply
  | .doorOpen => oneFin 24 openDoor
  | .doorClose => doorCloseReply
  | .doorRelease => oneFin 24 releaseDoor
  | .doorRead => oneFin 24 fun d s => done (s.doorResults d) s
  | .doorClearFault => oneFin 24 resolveFault
  | .probeSet => probeSetReply
  | .thermalSet => thermalSetReply
  | .roomTempRead => oneFin 8 fun r s => done (s.roomTempResults r) s
  | .probeRead => oneFin 32 fun p s => done (s.probeResults p) s
  | .evapSet => evapSetReply
  | .defrostRequest => oneFin 12 (onConfigured requestDefrost)
  | .defrostAbort => oneFin 12 (onConfigured abortDefrost)
  | .evapRelease => oneFin 12 (onConfigured releaseEvap)
  | .evapRead => oneFin 12 fun e s => done (s.evapResults e) s
  | .alarmList => alarmListReply
  | .alarmAck => alarmAckReply
  | .alarmRead => alarmReadReply
  | .alarmOverflowClear => noArgs clearOverflow
  | _ => fun _ _ => .error .badArg

/-- A request row hands its request off to its owner (R174). -/
theorem exec_eq_handOff {c : Instr} {code : Byte} (hc : requestCode c = some code) (s : State) :
    exec c s = .next (handOff code (ownerReply c) s) := by
  cases c <;> cases hc <;> rfl

/-- The owner refuses: the row's outcome is the refusal's answer alone (R174, 5.5). -/
theorem exec_refused {c : Instr} {code : Byte} {f : RequestFrame} {s t : State} {rc : ResultCode}
    (hc : requestCode c = some code) (h : HandsOff code f s t) (hr : ownerReply c f.args t = .error rc) :
    exec c s = refusedWith f rc t := by
  rw [exec_eq_handOff hc, handOff_refused h hr]; rfl

/-- The owner answers with its changes: the row's outcome is its answer over them (R174). -/
theorem exec_answered {c : Instr} {code : Byte} {f : RequestFrame} {s t u : State} {rc : ResultCode} {results : List Byte}
    (hc : requestCode c = some code) (h : HandsOff code f s t) (hr : ownerReply c f.args t = .ok (rc, results, u)) :
    exec c s = answered f rc results u := by
  rw [exec_eq_handOff hc, handOff_answered h hr]; rfl

/-! ## Availability (R175) -/

/-- The modes in which a group of requests is available: the columns of R175's table. -/
def Group.modes : Group → List Mode
  | .configure => [.standby]
  | .thermal => [.standby, .run]
  | .always => allModes
  | .run => [.run]
  | .wide => [.standby, .run, .holdover]
  | .start => [.standby]
  | .stop => [.run]

theorem Group.refusal_eq_none_iff (g : Group) (m : Mode) : g.refusal m = none ↔ m ∈ g.modes := by
  cases g <;> cases m <;> decide

theorem availableIn_of_group {code : Byte} {g : Group} (hg : groupOf code = some g) : AvailableIn code g.modes := by
  intro m
  constructor
  · rintro ⟨g', hg', hm⟩
    rw [hg, Option.some.injEq] at hg'
    exact (g.refusal_eq_none_iff m).1 (hg' ▸ hm)
  · exact fun hm => ⟨g, hg, (g.refusal_eq_none_iff m).2 hm⟩

/-! ## Reading the argument lists -/

/-- A reply to argument lists of length `n` alone: any other list is BAD_ARG (R200). -/
def TakesLength (n : Nat) (k : List Byte → State → Reply) : Prop :=
  ∀ args s, args.length ≠ n → k args s = .error .badArg

/-- A reply to argument lists that begin with a 16-bit number below `n`: a list that begins with another number is BAD_ARG. -/
def TakesNumberBelow (n : Nat) (k : List Byte → State → Reply) : Prop :=
  ∀ hi lo rest s, n ≤ num hi lo → k (hi :: lo :: rest) s = .error .badArg

theorem noArgs_takesLength (h : State → Reply) : TakesLength 0 (noArgs h) := by
  intro args s hl
  cases args with
  | nil => exact absurd rfl hl
  | cons => rfl

theorem oneFin_takesLength (n : Nat) (h : Fin n → State → Reply) : TakesLength 2 (oneFin n h) := by
  intro args s hl
  unfold oneFin
  split
  · exact absurd rfl hl
  · rfl

theorem oneHandle_takesLength (k : Handle → Pallet → State → Reply) : TakesLength 2 (oneHandle k) := by
  intro args s hl
  unfold oneHandle
  split
  · exact absurd rfl hl
  · rfl

theorem readEvapConfig_of_length_ne {args : List Byte} (h : args.length ≠ 23) : readEvapConfig args = none := by
  unfold readEvapConfig
  split
  · exact absurd rfl h
  · rfl

theorem evapSetReply_takesLength : TakesLength 25 evapSetReply := by
  intro args s hl
  unfold evapSetReply
  split
  next e1 e0 rest =>
    have hrest : rest.length ≠ 23 := fun h => hl (by simp [h])
    rw [readEvapConfig_of_length_ne hrest]
    cases readFin (num e1 e0) 12 <;> rfl
  next => rfl

/-- Every row with a fixed argument length holds its owner to it: the shared readers by their own lemmas, and each other reply by its
match on one list form. -/
theorem ownerReply_takesLength {c : Instr} {n : Nat} (hc : argLength c = some n) : TakesLength n (ownerReply c) := by
  cases c <;> cases hc
  case readIdent | startSite | stopSite | readMode | linkReset | moveCollect | alarmOverflowClear =>
    exact noArgs_takesLength _
  case roomRead | roomCount | laneRead | terminalRead | doorOpen | doorRelease | doorRead | doorClearFault | roomTempRead
      | probeRead | defrostRequest | defrostAbort | evapRelease | evapRead =>
    exact oneFin_takesLength _ _
  case palletRead | retire =>
    simp only [ownerReply]
    exact oneHandle_takesLength _
  case evapSet => exact evapSetReply_takesLength
  all_goals
    intro args s hl
    simp only [ownerReply, readAttentionReply, attentionMaskReply, siteSetReply, roomSetReply, slotMapSetReply, slotReadReply,
      slotBlockReply, classSetReply, admitReply, findTagReply, holdSetReply, holdClearReply, placeCorrectReply, moveReply,
      moveCancelReply, moveRedirectReply, moveReadReply, dispatchHoldReply, terminalSetReply, doorSetReply, doorSealReply,
      doorCloseReply, probeSetReply, thermalSetReply, alarmListReply, alarmAckReply, alarmReadReply]
    split
    · exact absurd rfl hl
    · rfl

theorem oneFin_takesNumberBelow (n : Nat) (h : Fin n → State → Reply) : TakesNumberBelow n (oneFin n h) := by
  intro hi lo rest s hn
  unfold oneFin
  split
  next heq =>
    cases heq
    rw [readFin_of_le hn]
  next => rfl

theorem alarmListReply_takesNumberBelow : TakesNumberBelow 64 alarmListReply := by
  intro hi lo rest s hn
  unfold alarmListReply
  split
  next heq =>
    cases heq
    exact if_pos hn
  next => rfl

theorem evapSetReply_takesNumberBelow : TakesNumberBelow 12 evapSetReply := by
  intro hi lo rest s hn
  simp only [evapSetReply, readFin_of_le hn]

/-- Every row whose arguments begin with a number holds its owner to the number's limit, whatever stands after it. -/
theorem ownerReply_takesNumberBelow {c : Instr} {n : Nat} (hc : numberLimit c = some n) :
    TakesNumberBelow n (ownerReply c) := by
  cases c <;> cases hc
  case roomRead | roomCount | laneRead | terminalRead | doorOpen | doorRelease | doorRead | doorClearFault | roomTempRead
      | probeRead | defrostRequest | defrostAbort | evapRelease | evapRead =>
    exact oneFin_takesNumberBelow _ _
  case alarmList => exact alarmListReply_takesNumberBelow
  case evapSet => exact evapSetReply_takesNumberBelow
  all_goals
    intro hi lo rest s hn
    simp only [ownerReply, roomSetReply, classSetReply, terminalSetReply, doorSetReply, doorSealReply, doorCloseReply,
      probeSetReply, thermalSetReply]
    split
    next heq =>
      cases heq
      rw [readFin_of_le hn]
    next => rfl

end Sys2Proof.Machine
end

section
/-! SUPPORT. The statement about argument lists of the wrong length, or with a leading number out of range (11.2). -/

namespace Sys2Proof.Machine

/-- Settles O33: the two clauses are what every request's owner does with such a list. -/
theorem argumentListsJudged : Obligations.ArgumentListsJudged := by
  unfold Obligations.ArgumentListsJudged
  constructor
  · intro c code n f s t hcode hlength h hargs
    exact exec_refused hcode h (ownerReply_takesLength hlength f.args t hargs)
  · intro c code hi lo rest n f s t hcode hlimit h hargs hn
    refine exec_refused hcode h ?_
    rw [hargs]
    exact ownerReply_takesNumberBelow hlimit hi lo rest t hn

end Sys2Proof.Machine
end

section
/-! SUPPORT. The rooms' runs of slots (R2), the lowest free slot of a run (R12), and the room-wide reserve (R7). -/

namespace Sys2Proof.Machine

/-- A number at or above a run's first slot is in the run as counted by its length exactly if it is below the run's ending (R2). -/
theorem lt_firstSlot_add_slotCount_iff {s : State} {r : Fin 8} {n : Nat} (h : s.firstSlot r ≤ n) :
    n < s.firstSlot r + s.slotCount r ↔ n < s.pdr.ending.get r := by
  unfold State.slotCount
  omega

/-- Where the room's ending is within the slots, every number of its run is a slot, so the bound of the search drops nothing. -/
theorem map_val_lowestFree {s : State} {r : Fin 8} (h : s.pdr.ending.get r ≤ 4096) :
    (s.lowestFree r).map Fin.val = findUp (fun n => s.slot n = .free) (s.slotCount r) (s.firstSlot r) := by
  unfold State.lowestFree
  cases hf : findUp (fun n => s.slot n = .free) (s.slotCount r) (s.firstSlot r) with
  | none => rfl
  | some n =>
    obtain ⟨hfirst, hrun, -, -⟩ := findUp_some.1 hf
    have hn : n < 4096 := Nat.lt_of_lt_of_le ((lt_firstSlot_add_slotCount_iff hfirst).1 hrun) h
    simp [hn]

theorem lowestFree_eq_some_iff {s : State} {r : Fin 8} (h : s.pdr.ending.get r ≤ 4096) (n : Fin 4096) :
    s.lowestFree r = some n ↔
      s.firstSlot r ≤ n.1 ∧ n.1 < s.pdr.ending.get r ∧ s.slot n.1 = .free
        ∧ ∀ m, s.firstSlot r ≤ m → m < n.1 → s.slot m ≠ .free := by
  have hval : s.lowestFree r = some n ↔ (s.lowestFree r).map Fin.val = some n.1 := by
    simp [Option.map_eq_some_iff, Fin.val_inj]
  rw [hval, map_val_lowestFree h, findUp_some]
  simp only [decide_eq_true_eq, decide_eq_false_iff_not]
  exact and_congr_right fun hfirst => and_congr_left' (lt_firstSlot_add_slotCount_iff hfirst)

theorem lowestFree_eq_none_iff {s : State} {r : Fin 8} (h : s.pdr.ending.get r ≤ 4096) :
    s.lowestFree r = none ↔ ∀ m, s.firstSlot r ≤ m → m < s.pdr.ending.get r → s.slot m ≠ .free := by
  rw [← Option.map_eq_none_iff (f := Fin.val), map_val_lowestFree h, findUp_none]
  simp only [decide_eq_false_iff_not]
  exact forall₂_congr fun m hfirst => imp_congr_left (lt_firstSlot_add_slotCount_iff hfirst)

/-- R7: a reserve on any free slot of a room that is not UNUSED takes the lowest one. -/
theorem reserveClaim_anySlot_of_free {s : State} {r : Fin 8} {n : Fin 4096} (o : OrderId) (hk : s.kind r ≠ .unused)
    (hn : s.lowestFree r = some n) : reserveClaim o (.anySlot r) s = .ok (.slot n, s.setSlot n.1 (.reserved o)) := by
  simp [reserveClaim, hk, hn]

/-- R7: where the room has no free slot, the reserve is refused. -/
theorem reserveClaim_anySlot_of_full {s : State} {r : Fin 8} (o : OrderId) (hk : s.kind r ≠ .unused)
    (hn : s.lowestFree r = none) : reserveClaim o (.anySlot r) s = .error .destFull := by
  simp [reserveClaim, hk, hn]

/-- Settles O27: the search for the lowest free slot runs over the room's run, and the room-wide reserve takes what it finds. -/
theorem lowestFreeSlotIsLowest : Obligations.LowestFreeSlotIsLowest := by
  unfold Obligations.LowestFreeSlotIsLowest
  intro s r hending
  refine ⟨lowestFree_eq_some_iff hending, lowestFree_eq_none_iff hending, fun o hkind => ⟨fun n hn => ?_, fun hn => ?_⟩⟩
  · exact reserveClaim_anySlot_of_free o hkind hn
  · exact reserveClaim_anySlot_of_full o hkind hn

end Sys2Proof.Machine
end

section
/-! SUPPORT. The requests to PDR: what each owner answers to an argument list of its form, by the state of its records (R13 to R17). -/

namespace Sys2Proof.Machine

/-! ## A single number -/

/-- A request whose only argument is a number in range acts on it. -/
theorem oneFin_be {n : Nat} (hn : n ≤ 65536) (k : Fin n → State → Reply) (i : Fin n) (s : State) :
    oneFin n k (be 2 i.1) s = k i s := by
  simp only [oneFin, be_two, num_be (Nat.lt_of_lt_of_le i.2 hn), readFin_val]

/-- A request whose only argument is a number out of range is BAD_ARG. -/
theorem oneFin_be_of_le {n m : Nat} (hm : m < 65536) (h : n ≤ m) (k : Fin n → State → Reply) (s : State) :
    oneFin n k (be 2 m) s = .error .badArg := by
  simp only [oneFin, be_two, num_be hm, readFin_of_le h]

/-! ## ROOM_SET (R13) -/

/-- A kind byte of no kind is BAD_ARG (R201). -/
theorem roomSetReply_of_kind_gt {rest : List Byte} {k : Byte} (hk : 3 < k.toNat) (s : State) :
    roomSetReply (rest ++ [k]) s = .error .badArg := by
  unfold roomSetReply
  split
  next hi lo k' heq =>
    have hlast : k = k' := by simpa using congrArg List.getLast? heq
    rw [← hlast, readRoomKind_of_gt hk]
    cases readFin (num hi lo) 8 <;> rfl
  next => rfl

theorem roomSetReply_be (r : Fin 8) (k : RoomKind) (s : State) :
    roomSetReply (be 2 r.1 ++ [k.byte]) s =
      if s.kind r = k then done [] s
      else if s.roomOccupied r then .error .occupied
      else done [] (setRoomKind r k s) := by
  have hr : r.1 < 65536 := by omega
  simp only [roomSetReply, be_two, List.cons_append, List.nil_append, num_be hr, readFin_val, readRoomKind_byte]

/-! ## SLOT_MAP_SET (R14) -/

/-- A count byte other than 8 is BAD_ARG. -/
theorem slotMapSetReply_of_count_ne {n : Byte} (hn : n ≠ 8#8) (rest : List Byte) (s : State) :
    slotMapSetReply (n :: rest) s = .error .badArg := by
  unfold slotMapSetReply
  split
  next heq =>
    cases heq
    simp [hn]
  next => rfl

/-- R14 asks each ending for itself to be at most 4096; where none decreases, the last one's bound is every one's. -/
theorem endingsOk_iff (a b c d e g h i : Nat) :
    endingsOk #v[a, b, c, d, e, g, h, i] = true ↔
      a ≤ b ∧ b ≤ c ∧ c ≤ d ∧ d ≤ e ∧ e ≤ g ∧ g ≤ h ∧ h ≤ i ∧ i ≤ 4096 := by
  have hfin (p : Fin 8 → Bool) : (List.finRange 8).all p = true ↔
      p 0 = true ∧ p 1 = true ∧ p 2 = true ∧ p 3 = true ∧ p 4 = true ∧ p 5 = true ∧ p 6 = true ∧ p 7 = true := by
    simp [List.all_eq_true, Fin.forall_fin_succ]
  simp only [endingsOk, hfin]
  simp [Vector.get]
  omega

theorem slotMapSetReply_be {a b c d e g h i : Nat} (hlt : ∀ x ∈ [a, b, c, d, e, g, h, i], x < 65536) (s : State) :
    slotMapSetReply ([8#8] ++ be 2 a ++ be 2 b ++ be 2 c ++ be 2 d ++ be 2 e ++ be 2 g ++ be 2 h ++ be 2 i) s =
      if endingsOk #v[a, b, c, d, e, g, h, i] = false then .error .badArg
      else if s.mapDisturbs #v[a, b, c, d, e, g, h, i] then .error .occupied
      else done [] (setSlotMap #v[a, b, c, d, e, g, h, i] s) := by
  simp only [List.forall_mem_cons] at hlt
  obtain ⟨ha, hb, hc, hd, he, hg, hh, hi, -⟩ := hlt
  simp only [slotMapSetReply, be_two, List.cons_append, List.nil_append, num_be ha, num_be hb, num_be hc, num_be hd, num_be he,
    num_be hg, num_be hh, num_be hi]
  simp

/-! ## SLOT_READ (R16) and SLOT_BLOCK (R17) -/

/-- A slot argument names no slot of a room exactly if it is past the slots or its slot belongs to no room. -/
theorem slotArg_eq_none_iff {s : State} {n : Nat} : s.slotArg n = none ↔ 4096 ≤ n ∨ s.roomOfSlot n = none := by
  unfold State.slotArg
  split
  next hn => simp [Nat.not_le.2 hn]
  next hn => simp [Nat.not_lt.1 hn]

theorem slotArg_of_lt {s : State} {n : Nat} (h : n < 4096) : s.slotArg n = s.roomOfSlot n := if_pos h

theorem slotReadReply_of_room {s : State} {n : Nat} {r : Fin 8} (hn : n < 65536) (hr : s.slotArg n = some r) :
    slotReadReply (be 2 n) s = done (num2 r.1 ++ [(s.slot n).byte] ++ (s.slot n).reference) s := by
  simp only [slotReadReply, be_two, num_be hn, hr]

theorem slotReadReply_of_no_room {s : State} {n : Nat} (hn : n < 65536) (hr : s.slotArg n = none) :
    slotReadReply (be 2 n) s = .error .badArg := by
  simp only [slotReadReply, be_two, num_be hn, hr]

/-- An action byte above 01h is BAD_ARG (R201). -/
theorem slotBlockReply_of_action_gt {slot : List Byte} {a : Byte} (ha : 1 < a.toNat) (s : State) :
    slotBlockReply (slot ++ [a]) s = .error .badArg := by
  unfold slotBlockReply
  split
  next hi lo a' heq =>
    have hlast : a = a' := by simpa using congrArg List.getLast? heq
    rw [← hlast, readFlag_of_gt ha]
    cases s.slotArg (num hi lo) <;> rfl
  next => rfl

theorem slotBlockReply_of_room {s : State} {n : Nat} {r : Fin 8} (hn : n < 65536) (hr : s.slotArg n = some r) (block : Bool) :
    slotBlockReply (be 2 n ++ flag1 block) s = blockSlot n block s := by
  simp only [slotBlockReply, be_two, flag1, List.cons_append, List.nil_append, num_be hn, hr, readFlag_flag]

theorem slotBlockReply_of_no_room {s : State} {n : Nat} (hn : n < 65536) (hr : s.slotArg n = none) (block : Bool) :
    slotBlockReply (be 2 n ++ flag1 block) s = .error .badArg := by
  simp only [slotBlockReply, be_two, flag1, List.cons_append, List.nil_append, num_be hn, hr]

/-- R17: BLOCK blocks a FREE slot; UNBLOCK is what it already has. -/
theorem blockSlot_of_free {s : State} {n : Nat} (h : s.slot n = .free) :
    blockSlot n true s = done [] (s.setSlot n .blocked) ∧ blockSlot n false s = .error .already := by
  simp [blockSlot, h]

/-- R17: UNBLOCK frees a BLOCKED slot; BLOCK is what it already has. -/
theorem blockSlot_of_blocked {s : State} {n : Nat} (h : s.slot n = .blocked) :
    blockSlot n false s = done [] (s.setSlot n .free) ∧ blockSlot n true s = .error .already := by
  simp [blockSlot, h]

theorem blockSlot_of_reserved {s : State} {n : Nat} {o : OrderId} (h : s.slot n = .reserved o) (block : Bool) :
    blockSlot n block s = .error .occupied := by
  simp [blockSlot, h]

theorem blockSlot_of_occupied {s : State} {n : Nat} {p : Handle} (h : s.slot n = .occupied p) (block : Bool) :
    blockSlot n block s = .error .occupied := by
  simp [blockSlot, h]

end Sys2Proof.Machine
end

section
/-! SUPPORT. The statements about the requests to PDR (R13 to R17). -/

namespace Sys2Proof.Machine

/-- ROOM_SET by the room's kind and what stands in its way (R13). -/
theorem roomSet_configures {f : RequestFrame} {s t : State} {r : Fin 8} {k : RoomKind} (h : HandsOff 0x10 f s t)
    (hargs : f.args = be 2 r.1 ++ [k.byte]) :
    (t.kind r = k → exec .roomSet s = answered f .ok [] t)
    ∧ (t.kind r ≠ k → t.roomOccupied r = true → exec .roomSet s = refusedWith f .occupied t)
    ∧ (t.kind r ≠ k → t.roomOccupied r = false → exec .roomSet s = answered f .ok [] (setRoomKind r k t)) := by
  have hreply : ownerReply .roomSet f.args t = _ := hargs ▸ roomSetReply_be r k t
  refine ⟨fun hk => exec_answered rfl h ?_, fun hk ho => exec_refused rfl h ?_, fun hk ho => exec_answered rfl h ?_⟩
  · rw [hreply, if_pos hk]; rfl
  · rw [hreply, if_neg hk, if_pos ho]
  · rw [hreply, if_neg hk, if_neg (by simp [ho])]; rfl

/-- SLOT_MAP_SET by the order of its endings and what they disturb (R14). -/
theorem slotMapSet_configures {f : RequestFrame} {s t : State} {a b c d e g h i : Nat} (hf : HandsOff 0x11 f s t)
    (hargs : f.args = [8#8] ++ be 2 a ++ be 2 b ++ be 2 c ++ be 2 d ++ be 2 e ++ be 2 g ++ be 2 h ++ be 2 i)
    (hlt : ∀ x ∈ [a, b, c, d, e, g, h, i], x < 65536) :
    (endingsOk #v[a, b, c, d, e, g, h, i] = false → exec .slotMapSet s = refusedWith f .badArg t)
    ∧ (endingsOk #v[a, b, c, d, e, g, h, i] = true → t.mapDisturbs #v[a, b, c, d, e, g, h, i] = true →
        exec .slotMapSet s = refusedWith f .occupied t)
    ∧ (endingsOk #v[a, b, c, d, e, g, h, i] = true → t.mapDisturbs #v[a, b, c, d, e, g, h, i] = false →
        exec .slotMapSet s = answered f .ok [] (setSlotMap #v[a, b, c, d, e, g, h, i] t)) := by
  have hreply : ownerReply .slotMapSet f.args t = _ := hargs ▸ slotMapSetReply_be hlt t
  refine ⟨fun hok => exec_refused rfl hf ?_, fun hok hm => exec_refused rfl hf ?_, fun hok hm => exec_answered rfl hf ?_⟩
  · rw [hreply, if_pos hok]
  · rw [hreply, if_neg (by simp [hok]), if_pos hm]
  · rw [hreply, if_neg (by simp [hok]), if_neg (by simp [hm])]; rfl

/-- Settles O23, by the owners' replies to ROOM_SET and SLOT_MAP_SET. -/
theorem roomRequestsConfigure : Obligations.RoomRequestsConfigure := by
  unfold Obligations.RoomRequestsConfigure
  refine ⟨availableIn_of_group (g := .configure) rfl, availableIn_of_group (g := .configure) rfl, ?_, ?_, ?_⟩
  · intro f s t n k rest
    refine ⟨fun h hargs hk => exec_refused rfl h ?_, fun h hargs hn => exec_refused rfl h ?_⟩
    · exact hargs ▸ roomSetReply_of_kind_gt hk t
    · exact hargs ▸ slotMapSetReply_of_count_ne hn rest t
  · intro f s t r k h hargs
    exact roomSet_configures h hargs
  · intro f s t a b c d e g h i hf hargs hlt ok
    obtain ⟨hbad, hdisturbs, hstored⟩ := slotMapSet_configures hf hargs hlt
    have hok : endingsOk #v[a, b, c, d, e, g, h, i] = true ↔ ok := endingsOk_iff a b c d e g h i
    refine ⟨fun hn => hbad ?_, fun hy => hdisturbs (hok.2 hy), fun hy => hstored (hok.2 hy)⟩
    exact Bool.eq_false_iff.2 (mt hok.1 hn)

/-- Settles O24: both reads take one room number and leave the state as it was. -/
theorem roomReadsAnswer : Obligations.RoomReadsAnswer := by
  unfold Obligations.RoomReadsAnswer
  constructor
  · intro f s t r hargs
    refine ⟨fun h => exec_answered rfl h ?_, fun h => exec_answered rfl h ?_⟩
    · exact hargs ▸ oneFin_be (by omega) (fun r s => done (s.roomResults r) s) r t
    · exact hargs ▸ oneFin_be (by omega) (fun r s => done (s.roomCountResults r) s) r t
  · intro f s t n hle hlt hargs
    refine ⟨fun h => exec_refused rfl h ?_, fun h => exec_refused rfl h ?_⟩
    · exact hargs ▸ oneFin_be_of_le hlt hle _ t
    · exact hargs ▸ oneFin_be_of_le hlt hle _ t

/-- Settles O25: SLOT_READ by the slot's room and state, LANE_READ by its number. -/
theorem slotAndLaneReadsAnswer : Obligations.SlotAndLaneReadsAnswer := by
  unfold Obligations.SlotAndLaneReadsAnswer
  constructor
  · intro f s t n h hargs hn
    refine ⟨fun r hslot hroom => exec_answered rfl h ?_, fun hnone => exec_refused rfl h ?_⟩
    · have hreply := slotReadReply_of_room hn ((slotArg_of_lt hslot).trans hroom)
      rw [hargs]
      refine Eq.trans hreply ?_
      cases t.slot n <;> rfl
    · exact hargs ▸ slotReadReply_of_no_room hn (slotArg_eq_none_iff.2 hnone)
  · intro f s t n h hargs hn
    refine ⟨fun d hd => exec_answered rfl h ?_, fun hle => exec_refused rfl h ?_⟩
    · subst hd
      exact hargs ▸ oneFin_be (by omega) (fun d s => done (s.laneResults d) s) d t
    · exact hargs ▸ oneFin_be_of_le hn hle _ t

/-- Settles O26, by the state of a slot that belongs to a room (the table of R17). -/
theorem slotBlockDecidedByState : Obligations.SlotBlockDecidedByState := by
  unfold Obligations.SlotBlockDecidedByState
  refine ⟨availableIn_of_group (g := .wide) rfl, ?_, ?_⟩
  · intro f s t slot a h hargs ha
    exact exec_refused rfl h (hargs ▸ slotBlockReply_of_action_gt ha t)
  · intro f s t n block h hargs hn
    constructor
    · intro hnone
      exact exec_refused rfl h (hargs ▸ slotBlockReply_of_no_room hn (slotArg_eq_none_iff.2 hnone) block)
    · intro r hslot hroom
      have hreply : ownerReply .slotBlock f.args t = blockSlot n block t :=
        hargs ▸ slotBlockReply_of_room hn ((slotArg_of_lt hslot).trans hroom) block
      refine ⟨?free, ?blocked, ?already, ?reserved, ?occupied⟩
      case free =>
        rintro hfree rfl
        exact exec_answered rfl h (hreply.trans (blockSlot_of_free hfree).1)
      case blocked =>
        rintro hblocked rfl
        exact exec_answered rfl h (hreply.trans (blockSlot_of_blocked hblocked).1)
      case already =>
        rintro (⟨hfree, rfl⟩ | ⟨hblocked, rfl⟩)
        · exact exec_refused rfl h (hreply.trans (blockSlot_of_free hfree).2)
        · exact exec_refused rfl h (hreply.trans (blockSlot_of_blocked hblocked).2)
      case reserved =>
        intro o hreserved
        exact exec_refused rfl h (hreply.trans (blockSlot_of_reserved hreserved block))
      case occupied =>
        intro p hoccupied
        exact exec_refused rfl h (hreply.trans (blockSlot_of_occupied hoccupied block))

end Sys2Proof.Machine
end

section
/-! SUPPORT. What leaves the place directory and the custody table alone: every operation of LKP, ALT, LPL, DFC and TSU, MDS's dispatch
and requeue, and DKC's doors but for the claims they make. One lemma for each operation, so that a proof about places or pallets never
unfolds one of them. -/

namespace Sys2Proof.Machine

/-- The records that PDR and CTB own. -/
def State.stock (s : State) : Pdr × Ctb := (s.pdr, s.ctb)

theorem ctb_eq_of_stock {s t : State} (h : t.stock = s.stock) : t.ctb = s.ctb := congrArg Prod.snd h

/-! ## Writes, branches and loops

Proofs are `(rfl)`, not `rfl`: these lemmas discharge side conditions of other `simp` lemmas, which a step by definitional unfolding
alone does not. -/

@[simp] theorem stock_withMds (s : State) (b : Mds) : (s.withMds b).stock = s.stock := (rfl)
@[simp] theorem stock_withDkc (s : State) (b : Dkc) : (s.withDkc b).stock = s.stock := (rfl)
@[simp] theorem stock_withTsu (s : State) (b : Tsu) : (s.withTsu b).stock = s.stock := (rfl)
@[simp] theorem stock_withDfc (s : State) (b : Dfc) : (s.withDfc b).stock = s.stock := (rfl)
@[simp] theorem stock_withAlt (s : State) (b : Alt) : (s.withAlt b).stock = s.stock := (rfl)
@[simp] theorem stock_withLpl (s : State) (b : Lpl) : (s.withLpl b).stock = s.stock := (rfl)
@[simp] theorem stock_withLkp (s : State) (b : Lkp) : (s.withLkp b).stock = s.stock := (rfl)
@[simp] theorem stock_withMoc (s : State) (b : Moc) : (s.withMoc b).stock = s.stock := (rfl)
@[simp] theorem stock_withTimeBase (s : State) (n : Nat) : (s.withTimeBase n).stock = s.stock := (rfl)
@[simp] theorem stock_withFreeDraws (s : State) (n : Nat) : (s.withFreeDraws n).stock = s.stock := (rfl)
@[simp] theorem stock_withPending (s : State) (q : List Instr) : (s.withPending q).stock = s.stock := (rfl)
@[simp] theorem stock_setOrderEntry (s : State) (i : Nat) (e : OrderEntry) : (s.setOrderEntry i e).stock = s.stock := (rfl)
@[simp] theorem stock_updTerminal (s : State) (t : Fin 16) (f : Terminal → Terminal) : (s.updTerminal t f).stock = s.stock := (rfl)
@[simp] theorem stock_updDoor (s : State) (d : Fin 24) (f : Door → Door) : (s.updDoor d f).stock = s.stock := (rfl)
@[simp] theorem stock_updHold (s : State) (r : Fin 8) (f : RoomHold → RoomHold) : (s.updHold r f).stock = s.stock := (rfl)
@[simp] theorem stock_updProbe (s : State) (p : Fin 32) (f : Probe → Probe) : (s.updProbe p f).stock = s.stock := (rfl)
@[simp] theorem stock_updThermal (s : State) (r : Fin 8) (f : RoomThermal → RoomThermal) : (s.updThermal r f).stock = s.stock := (rfl)
@[simp] theorem stock_updEvap (s : State) (e : Fin 12) (f : Evap → Evap) : (s.updEvap e f).stock = s.stock := (rfl)
@[simp] theorem stock_updLane (s : State) (l : Lane) (f : LaneRec → LaneRec) : (s.updLane l f).stock = s.stock := (rfl)
@[simp] theorem stock_updStation (s : State) (st : StationId) (f : Station → Station) : (s.updStation st f).stock = s.stock := (rfl)
@[simp] theorem stock_updOrder (s : State) (o : OrderId) (f : Order → Order) : (s.updOrder o f).stock = s.stock := (rfl)

@[simp] theorem stock_ite {c : Prop} [Decidable c] (a b : State) : (if c then a else b).stock = if c then a.stock else b.stock := by
  split <;> rfl

theorem stock_forEach {α : Type} {f : α → State → State} (h : ∀ x s, (f x s).stock = s.stock) (xs : List α) (s : State) :
    (s.forEach xs f).stock = s.stock :=
  frame_forEach State.stock f h xs s

/-! ## Causes, alarms, commands placed -/

@[simp] theorem stock_setCause (c : Cause) (s : State) : (setCause c s).stock = s.stock := (rfl)
@[simp] theorem stock_setDoorCause (d : Fin 24) (s : State) : (setDoorCause d s).stock = s.stock := (rfl)
@[simp] theorem stock_setDefrostCause (e : Fin 12) (s : State) : (setDefrostCause e s).stock = s.stock := (rfl)
@[simp] theorem stock_setRoomCause (r : Fin 8) (s : State) : (setRoomCause r s).stock = s.stock := (rfl)
@[simp] theorem stock_clearCause (c : Cause) (s : State) : (clearCause c s).stock = s.stock := by
  cases c <;> rfl
@[simp] theorem stock_discardFrame (b : Bool) (s : State) : (discardFrame b s).stock = s.stock := (rfl)
@[simp] theorem stock_settle (s : State) : (settle s).stock = s.stock := (rfl)
@[simp] theorem stock_syncRetry (s : State) : (syncRetry s).stock = s.stock := (rfl)
@[simp] theorem stock_pushAnswer (f : RequestFrame) (rc : ResultCode) (results : List Byte) (s : State) :
    (pushAnswer f rc results s).stock = s.stock := (rfl)
@[simp] theorem stock_raiseAlarm (k : AlarmKind) (sub : Subject) (v : Option AlarmValue) (s : State) :
    (raiseAlarm k sub v s).stock = s.stock := (rfl)
@[simp] theorem stock_clearAlarm (k : AlarmKind) (sub : Subject) (s : State) : (clearAlarm k sub s).stock = s.stock := (rfl)
@[simp] theorem stock_placeCmd (st : StationId) (c : StationCmd) (s : State) : (placeCmd st c s).stock = s.stock := (rfl)
@[simp] theorem stock_placeDoor (d : Fin 24) (c : DoorCmd) (s : State) : (placeDoor d c s).stock = s.stock := (rfl)
@[simp] theorem stock_placeEvap (e : Fin 12) (c : CtlPhase) (s : State) : (placeEvap e c s).stock = s.stock := (rfl)
@[simp] theorem stock_placeTerm (t : Fin 16) (c : TermCmd) (s : State) : (placeTerm t c s).stock = s.stock := (rfl)
@[simp] theorem stock_configuredChanged (st : StationId) (before after : Bool) (s : State) :
    (configuredChanged st before after s).stock = s.stock := by simp [configuredChanged]

/-! ## DFC and the room hold -/

@[simp] theorem stock_enterPhase (e : Fin 12) (p : Phase) (deadline : Option Time) (s : State) :
    (enterPhase e p deadline s).stock = s.stock := (rfl)
@[simp] theorem stock_enterPumpdown (e : Fin 12) (s : State) : (enterPumpdown e s).stock = s.stock := by
  simp [enterPumpdown, defrostStartNotice]
@[simp] theorem stock_enterHeat (e : Fin 12) (s : State) : (enterHeat e s).stock = s.stock := by simp [enterHeat]
@[simp] theorem stock_enterDrip (e : Fin 12) (s : State) : (enterDrip e s).stock = s.stock := by simp [enterDrip]
@[simp] theorem stock_heldNotice (e : Fin 12) (s : State) : (heldNotice e s).stock = s.stock := by
  unfold heldNotice; split <;> simp
@[simp] theorem stock_becomeHeld (r : Fin 8) (s : State) : (becomeHeld r s).stock = s.stock :=
  stock_forEach stock_heldNotice _ _
@[simp] theorem stock_holdClaim (r : Fin 8) (e : Fin 12) (forced : Bool) (s : State) : (holdClaim r e forced s).stock = s.stock := by
  simp [holdClaim]
@[simp] theorem stock_forcingClaim (r : Fin 8) (e : Fin 12) (s : State) : (forcingClaim r e s).stock = s.stock := by
  simp [forcingClaim]
@[simp] theorem stock_holdWithdrawal (r : Fin 8) (e : Fin 12) (s : State) : (holdWithdrawal r e s).stock = s.stock := by
  simp [holdWithdrawal]
@[simp] theorem stock_reevaluateHold (r : Fin 8) (s : State) : (reevaluateHold r s).stock = s.stock := by simp [reevaluateHold]
@[simp] theorem stock_grantAllowance (e : Fin 12) (s : State) : (grantAllowance e s).stock = s.stock := by simp [grantAllowance]
@[simp] theorem stock_allowanceLoop (fuel : Nat) (s : State) : (allowanceLoop fuel s).stock = s.stock := by
  induction fuel generalizing s with
  | zero => rfl
  | succ fuel ih => unfold allowanceLoop; repeat' split
                    all_goals simp [ih]
@[simp] theorem stock_allowancePass (s : State) : (allowancePass s).stock = s.stock := by simp [allowancePass]
@[simp] theorem stock_releaseAllowance (e : Fin 12) (s : State) : (releaseAllowance e s).stock = s.stock := by simp [releaseAllowance]
@[simp] theorem stock_deferralExpires (e : Fin 12) (s : State) : (deferralExpires e s).stock = s.stock := by simp [deferralExpires]
@[simp] theorem stock_startDeferral (e : Fin 12) (s : State) : (startDeferral e s).stock = s.stock := by simp [startDeferral]
@[simp] theorem stock_raiseDemand (e : Fin 12) (s : State) : (raiseDemand e s).stock = s.stock := by simp [raiseDemand]
@[simp] theorem stock_demandIfFull (e : Fin 12) (s : State) : (demandIfFull e s).stock = s.stock := by simp [demandIfFull]
@[simp] theorem stock_frostExpiry (s : State) : (frostExpiry s).stock = s.stock := by simp [frostExpiry, stock_forEach]
@[simp] theorem stock_portalPassage (r : Fin 8) (s : State) : (portalPassage r s).stock = s.stock :=
  stock_forEach (by simp) _ _
@[simp] theorem stock_endDrip (e : Fin 12) (s : State) : (endDrip e s).stock = s.stock := by simp [endDrip]
@[simp] theorem stock_endRefreeze (e : Fin 12) (s : State) : (endRefreeze e s).stock = s.stock := by simp [endRefreeze]
@[simp] theorem stock_endHeatOnTemperature (e : Fin 12) (s : State) : (endHeatOnTemperature e s).stock = s.stock := by
  simp [endHeatOnTemperature]
@[simp] theorem stock_controllerHeard (e : Fin 12) (s : State) : (controllerHeard e s).stock = s.stock := by
  unfold controllerHeard; split <;> simp
@[simp] theorem stock_controllerPhaseEffect (e : Fin 12) (fresh before : Bool) (rep : CtlReport) (s : State) :
    (controllerPhaseEffect e fresh before rep s).stock = s.stock := by
  unfold controllerPhaseEffect; dsimp only; split <;> simp
@[simp] theorem stock_controllerDisagree (e : Fin 12) (rep : CtlReport) (s : State) : (controllerDisagree e rep s).stock = s.stock := by
  unfold controllerDisagree; split <;> simp
@[simp] theorem stock_takeControllerReport (e : Fin 12) (fresh : Bool) (rep : CtlReport) (s : State) :
    (takeControllerReport e fresh rep s).stock = s.stock := by simp [takeControllerReport]
@[simp] theorem stock_controllerLost (e : Fin 12) (s : State) : (controllerLost e s).stock = s.stock := by
  unfold controllerLost; split <;> simp
@[simp] theorem stock_abandonDefrost (e : Fin 12) (s : State) : (abandonDefrost e s).stock = s.stock := by
  unfold abandonDefrost; split <;> simp
@[simp] theorem stock_stopFrost (s : State) : (stopFrost s).stock = s.stock := (rfl)
@[simp] theorem stock_dfcNotice (entered : Mode) (s : State) : (dfcNotice entered s).stock = s.stock := by
  unfold dfcNotice; split <;> simp [stock_forEach]
@[simp] theorem stock_dfcWarmRestart (s : State) : (dfcWarmRestart s).stock = s.stock :=
  stock_forEach (by simp [evapRestart]) _ _

/-! ## TSU -/

@[simp] theorem stock_deriveRoom (r : Fin 8) (s : State) : (deriveRoom r s).stock = s.stock := by
  unfold deriveRoom
  exact (stock_updThermal ..).trans (stock_forEach (fun _ _ => stock_updProbe ..) _ _)
@[simp] theorem stock_evaluationAlarms (r : Fin 8) (before after : RoomThermal) (s : State) :
    (evaluationAlarms r before after s).stock = s.stock := by
  unfold evaluationAlarms; split <;> simp
@[simp] theorem stock_staleAlarm (r : Fin 8) (s : State) : (staleAlarm r s).stock = s.stock := by
  unfold staleAlarm; dsimp only; split <;> simp
@[simp] theorem stock_noteThermalChange (r : Fin 8) (before : ThermalState) (s : State) :
    (noteThermalChange r before s).stock = s.stock := by simp [noteThermalChange]
@[simp] theorem stock_evaluateRoom (r : Fin 8) (s : State) : (evaluateRoom r s).stock = s.stock := by simp [evaluateRoom]
@[simp] theorem stock_probeStatusAlarm (p : Fin 32) (before : ProbeStatus) (s : State) :
    (probeStatusAlarm p before s).stock = s.stock := by simp [probeStatusAlarm]
@[simp] theorem stock_takeProbeEntry (p : Fin 32) (en : ProbeEntry) (s : State) : (takeProbeEntry p en s).stock = s.stock := by
  simp [takeProbeEntry]
@[simp] theorem stock_takeProbeReport (r : Fin 8) (p0 p1 p2 p3 : ProbeEntry) (s : State) :
    (takeProbeReport r p0 p1 p2 p3 s).stock = s.stock := by simp [takeProbeReport]
@[simp] theorem stock_hubLost (r : Fin 8) (s : State) : (hubLost r s).stock = s.stock := by simp [hubLost, stock_forEach]
@[simp] theorem stock_modeSilence (s : State) : (modeSilence s).stock = s.stock := stock_forEach stock_deriveRoom _ _
@[simp] theorem stock_evaluateAll (s : State) : (evaluateAll s).stock = s.stock := stock_forEach stock_evaluateRoom _ _
@[simp] theorem stock_stopAccrual (s : State) : (stopAccrual s).stock = s.stock := (rfl)
@[simp] theorem stock_tsuWarmRestart (s : State) : (tsuWarmRestart s).stock = s.stock := by simp [tsuWarmRestart]

/-! ## MDS with DKC's use lists and session counts -/

theorem stock_useListEntry {d : Fin 24} {o : OrderId} {s u : State} (h : useListEntry d o s = some u) : u.stock = s.stock := by
  unfold useListEntry at h
  split at h <;> cases h
  rfl
@[simp] theorem stock_leaveUseList (d : Option (Fin 24)) (o : OrderId) (s : State) : (leaveUseList d o s).stock = s.stock := by
  cases d <;> rfl
@[simp] theorem stock_spendDraw (n : Nat) (s : State) : (spendDraw n s).stock = s.stock := by simp [spendDraw]
@[simp] theorem stock_countPallet (d : Fin 24) (s : State) : (countPallet d s).stock = s.stock := by
  unfold countPallet; split <;> simp
@[simp] theorem stock_movedCount (d : Fin 24) (s : State) : (movedCount d s).stock = s.stock := by
  unfold movedCount; split <;> simp
@[simp] theorem stock_movedNotice (origin : Place) (s : State) : (movedNotice origin s).stock = s.stock := by
  unfold movedNotice; split <;> simp
theorem stock_dropThrough {p : Place} {s u : State} (h : dropThrough p s = some u) : u.stock = s.stock := by
  unfold dropThrough dropThroughClaim at h
  repeat' split at h
  all_goals cases h
  all_goals simp
@[simp] theorem stock_finishOrder (o : OrderId) (out : Outcome) (s : State) : (finishOrder o out s).stock = s.stock := (rfl)
@[simp] theorem stock_termIdle (t : Fin 16) (s : State) : (termIdle t s).stock = s.stock := (rfl)
@[simp] theorem stock_refuse (t : Fin 16) (why : RefuseReason) (s : State) : (refuse t why s).stock = s.stock := (rfl)
@[simp] theorem stock_accept (t : Fin 16) (kind : TermReportKind) (s : State) : (accept t kind s).stock = s.stock := (rfl)
@[simp] theorem stock_grantOrder (o : OrderId) (t : Fin 16) (s : State) : (grantOrder o t s).stock = s.stock := by
  unfold grantOrder useListEntry
  repeat' split
  all_goals rfl
@[simp] theorem stock_visitTerminal (t : Fin 16) (s : State) : (visitTerminal t s).stock = s.stock := by
  unfold visitTerminal
  repeat' split
  all_goals simp
@[simp] theorem stock_dispatchPass (s : State) : (dispatchPass s).stock = s.stock := by simp [dispatchPass, stock_forEach]
@[simp] theorem stock_requeueOrder (o : OrderId) (s : State) : (requeueOrder o s).stock = s.stock := (rfl)
@[simp] theorem stock_requeueAndRevoke (o : OrderId) (s : State) : (requeueAndRevoke o s).stock = s.stock := by
  unfold requeueAndRevoke
  repeat' split
  all_goals simp
@[simp] theorem stock_requeueWithRevokeDue (o : OrderId) (s : State) : (requeueWithRevokeDue o s).stock = s.stock := by
  unfold requeueWithRevokeDue
  repeat' split
  all_goals simp
@[simp] theorem stock_departureNotice (removed : List OrderId) (s : State) : (departureNotice removed s).stock = s.stock := by
  simp [departureNotice, stock_forEach]
@[simp] theorem stock_terminalLost (t : Fin 16) (s : State) : (terminalLost t s).stock = s.stock := by
  unfold terminalLost; split <;> simp
@[simp] theorem stock_terminalHeard (t : Fin 16) (s : State) : (terminalHeard t s).stock = s.stock := by
  unfold terminalHeard
  repeat' split
  all_goals simp
@[simp] theorem stock_terminalsOffline (s : State) : (terminalsOffline s).stock = s.stock :=
  stock_forEach (fun _ _ => stock_updTerminal ..) _ _
@[simp] theorem stock_mdsNotice (left entered : Mode) (s : State) : (mdsNotice left entered s).stock = s.stock := by
  unfold mdsNotice
  repeat' split
  all_goals simp [stock_forEach]
@[simp] theorem stock_mdsWarmRestart (s : State) : (mdsWarmRestart s).stock = s.stock := (rfl)
@[simp] theorem stock_retireOrder (o : OrderId) (s : State) : (retireOrder o s).stock = s.stock := (rfl)
@[simp] theorem stock_setHold (value : Bool) (ts : List (Fin 16)) (s : State) : (setHold value ts s).stock = s.stock := by
  have turns := stock_forEach (fun i (s : State) => stock_updTerminal s i fun x => { x with dispatchHold := value }) ts s
  simp [setHold, turns]

/-- A redirect's route door: the new use-list entry, if there is one, changes a door alone. -/
theorem stock_reroute {route old : Option (Fin 24)} {o : OrderId} {s u : State}
    (h : (if route = old then some s
      else match route with
        | some d => useListEntry d o (leaveUseList old o s)
        | none => some (leaveUseList old o s)) = some u) : u.stock = s.stock := by
  split at h
  · cases h; rfl
  · split at h
    · rw [stock_useListEntry h, stock_leaveUseList]
    · cases h; simp

@[simp] theorem stock_afterRedirect (o : OrderId) (x : Order) (p : Place) (s : State) : (afterRedirect o x p s).stock = s.stock := by
  unfold afterRedirect
  cases x.state with
  | queued => simp
  | granted =>
    dsimp only
    split
    next hroute _ => simpa using stock_reroute hroute
    next hroute _ => exact stock_reroute hroute
    all_goals simp
  | carrying =>
    dsimp only
    split <;> simp
  | finished => rfl

/-! ## DKC's doors -/

@[simp] theorem stock_doorEnter (d : Fin 24) (st : DoorState) (s : State) : (doorEnter d st s).stock = s.stock := (rfl)
@[simp] theorem stock_doorOutcome (d : Fin 24) (out : DoorOutcome) (s : State) : (doorOutcome d out s).stock = s.stock := (rfl)
@[simp] theorem stock_doorLeaveTo (d : Fin 24) (st : DoorState) (notify : Bool) (s : State) :
    (doorLeaveTo d st notify s).stock = s.stock := by simp [doorLeaveTo]
@[simp] theorem stock_reevaluateIfClosed (d : Fin 24) (s : State) : (reevaluateIfClosed d s).stock = s.stock := by
  simp [reevaluateIfClosed]
@[simp] theorem stock_enterFault (d : Fin 24) (code : FaultCode) (s : State) : (enterFault d code s).stock = s.stock := by
  simp [enterFault]
@[simp] theorem stock_confirmSeal (d : Fin 24) (s : State) : (confirmSeal d s).stock = s.stock := (rfl)
@[simp] theorem stock_enterOpen (d : Fin 24) (s : State) : (enterOpen d s).stock = s.stock := by simp [enterOpen]
@[simp] theorem stock_doorOffline (d : Fin 24) (s : State) : (doorOffline d s).stock = s.stock := by simp [doorOffline]
@[simp] theorem stock_dkcNotice (entered : Mode) (s : State) : (dkcNotice entered s).stock = s.stock := by
  unfold dkcNotice; split <;> simp [stock_forEach]
@[simp] theorem stock_doorRestart (d : Fin 24) (s : State) : (doorRestart d s).stock = s.stock := by simp [doorRestart]
@[simp] theorem stock_dkcWarmRestart (s : State) : (dkcWarmRestart s).stock = s.stock := stock_forEach stock_doorRestart _ s
@[simp] theorem stock_setInService (d : Fin 24) (inService : Bool) (s : State) : (setInService d inService s).stock = s.stock := by
  simp [setInService]
@[simp] theorem stock_setDoor (d : Fin 24) (room : Fin 8) (limit : Nat) (inService : Bool) (s : State) :
    (setDoor d room limit inService s).stock = s.stock := by simp [setDoor]

/-! ## LPL -/

@[simp] theorem stock_ownerLost (st : StationId) (s : State) : (ownerLost st s).stock = s.stock := by
  cases st <;> simp [ownerLost]
@[simp] theorem stock_ownerHeard (st : StationId) (s : State) : (ownerHeard st s).stock = s.stock := by
  cases st <;> simp [ownerHeard]
@[simp] theorem stock_sendPoll (l : Lane) (st : StationId) (rest : List StationId) (s : State) :
    (sendPoll l st rest s).stock = s.stock := (rfl)
@[simp] theorem stock_nextPoll (l : Lane) (s : State) : (nextPoll l s).stock = s.stock := by
  unfold nextPoll; split <;> simp
@[simp] theorem stock_beginRound (l : Lane) (s : State) : (beginRound l s).stock = s.stock := by simp [beginRound]
@[simp] theorem stock_pollEnded (l : Lane) (s : State) : (pollEnded l s).stock = s.stock := by simp [pollEnded]
@[simp] theorem stock_roundExpiry (l : Lane) (s : State) : (roundExpiry l s).stock = s.stock := by simp [roundExpiry]
@[simp] theorem stock_takeDelivery (st : StationId) (s : State) : (takeDelivery st s).stock = s.stock := (rfl)
@[simp] theorem stock_heardAgain (st : StationId) (s : State) : (heardAgain st s).stock = s.stock := by simp [heardAgain]
@[simp] theorem stock_declareLost (st : StationId) (s : State) : (declareLost st s).stock = s.stock := by simp [declareLost]
@[simp] theorem stock_missPoll (l : Lane) (st : StationId) (s : State) : (missPoll l st s).stock = s.stock := by simp [missPoll]
@[simp] theorem stock_missedAnswer (l : Lane) (st : StationId) (s : State) : (missedAnswer l st s).stock = s.stock := by
  simp [missedAnswer]
@[simp] theorem stock_stopLane (l : Lane) (s : State) : (stopLane l s).stock = s.stock := by
  unfold stopLane
  split
  · rfl
  · exact (stock_forEach (fun _ _ => stock_updStation ..) _ _).trans (stock_updLane ..)
@[simp] theorem stock_startLane (l : Lane) (s : State) : (startLane l s).stock = s.stock := by simp [startLane]
@[simp] theorem stock_lplNotice (entered : Mode) (s : State) : (lplNotice entered s).stock = s.stock := by
  unfold lplNotice; split <;> simp [stock_forEach]
@[simp] theorem stock_startRollCall (l : Lane) (s : State) : (startRollCall l s).stock = s.stock := by simp [startRollCall]

/-! ## MOC and LKP -/

@[simp] theorem stock_tick (s : State) : s.tick.stock = s.stock := (rfl)
@[simp] theorem stock_setSelfCheck (r : SelfCheck) (s : State) : (setSelfCheck r s).stock = s.stock := by simp [setSelfCheck]
@[simp] theorem stock_selfCheckSupply (s : State) : (selfCheckSupply s).stock = s.stock := by simp [selfCheckSupply]
@[simp] theorem stock_raiseSupplyLoss (s : State) : (raiseSupplyLoss s).stock = s.stock := (rfl)
@[simp] theorem stock_clearSupplyLoss (entered : Mode) (s : State) : (clearSupplyLoss entered s).stock = s.stock := by
  simp [clearSupplyLoss]
@[simp] theorem stock_recordLine (f : Moc → Moc) (s : State) : (recordLine f s).stock = s.stock := (rfl)
@[simp] theorem stock_setClock (new : Time) (s : State) : (setClock new s).stock = s.stock := (rfl)
@[simp] theorem stock_warmRestartBlocks (s : State) : (warmRestartBlocks s).stock = s.stock := by
  simp [warmRestartBlocks, mocWarmRestart, lplWarmRestart, lkpWarmRestart]
@[simp] theorem stock_restartChanges (supplyFail batteryLow : Bool) (before s : State) :
    (restartChanges supplyFail batteryLow before s).stock = s.stock := by simp [restartChanges]
@[simp] theorem stock_judgeReceived (ready : Bool) (received : List Byte) (s : State) :
    (judgeReceived ready received s).stock = s.stock := by
  unfold judgeReceived queueFrame
  split <;> simp
@[simp] theorem stock_endExchange (received : List Byte) (s : State) : (endExchange received s).stock = s.stock := by
  unfold endExchange
  split
  · rfl
  · simp [deliver]
theorem stock_takeHead {s t : State} {f : RequestFrame} (h : s.takeHead = some (f, t)) : t.stock = s.stock := by
  rw [takeHead_eq h, stock_withLkp]
@[simp] theorem stock_handOffUnknown (s : State) : (handOffUnknown s).stock = s.stock := by
  unfold handOffUnknown
  split
  next hhead => simp [stock_takeHead hhead]
  next => rfl

end Sys2Proof.Machine
end

section
/-! SUPPORT. The live records a handle names after a write of the custody table (R24), and PDR's claims, which do not write it. -/

namespace Sys2Proof.Machine

theorem pallet_eq_of_entries {s t : State} (h : t.ctb.entries = s.ctb.entries) (k : Handle) : t.pallet? k = s.pallet? k := by
  unfold State.pallet? State.entry
  rw [h]

theorem pallet_eq_of_stock {s t : State} (h : t.stock = s.stock) (k : Handle) : t.pallet? k = s.pallet? k :=
  pallet_eq_of_entries (congrArg Ctb.entries (ctb_eq_of_stock h)) k

theorem entries_updDoorPallets (s : State) (d : Fin 24) (f : List Handle → List Handle) :
    (s.updDoorPallets d f).ctb.entries = s.ctb.entries := rfl

theorem pallet_setEntry {s : State} (hs : swf {} s.ctb.entries = true) (i : Nat) (e : PalletEntry) (k : Handle) :
    (s.setEntry i e).pallet? k =
      if k.index.1 = i then (if k.index.1 < Config.palletEntries ∧ e.gen = k.gen then e.rec? else none) else s.pallet? k := by
  unfold State.pallet?
  rw [entry_setEntry s i k.index.1 e hs]
  split <;> rfl

/-- A change of an entry's record is a change of every record that a handle of the entry names. -/
theorem pallet_updPallet {s : State} (hs : swf {} s.ctb.entries = true) (h k : Handle) (f : Pallet → Pallet) :
    (s.updPallet h f).pallet? k = if k.index = h.index then (s.pallet? k).map f else s.pallet? k := by
  unfold State.updPallet
  rw [pallet_setEntry hs]
  simp only [Fin.val_inj]
  split
  next hindex =>
    unfold State.pallet?
    rw [hindex]
    dsimp only
    split <;> rfl
  next => rfl

theorem pallet_updPallet_same {s : State} (hs : swf {} s.ctb.entries = true) (h : Handle) (f : Pallet → Pallet) :
    (s.updPallet h f).pallet? h = (s.pallet? h).map f := by
  rw [pallet_updPallet hs, if_pos rfl]

/-- An entry in use has a record for the handle of its generation alone. -/
theorem pallet_eq_some {s : State} {h : Handle} {p : Pallet} (hp : s.pallet? h = some p) :
    h.index.1 < Config.palletEntries ∧ (s.entry h.index.1).gen = h.gen ∧ (s.entry h.index.1).rec? = some p := by
  unfold State.pallet? at hp
  dsimp only at hp
  split at hp
  next hlive => exact ⟨hlive.1, hlive.2, hp⟩
  next => cases hp

theorem entries_updPallet {s : State} (hs : swf {} s.ctb.entries = true) (h : Handle) (f : Pallet → Pallet) :
    swf {} (s.updPallet h f).ctb.entries = true := swf_sset hs

/-! ## PDR's claims -/

theorem ctb_reserveClaim {o : OrderId} {dest : Dest} {s u : State} {p : Place} (h : reserveClaim o dest s = .ok (p, u)) :
    u.ctb = s.ctb := by
  unfold reserveClaim at h
  repeat' split at h
  all_goals cases h
  all_goals rfl

theorem ctb_commitClaim {o : OrderId} {h : Handle} {p : Place} {s u : State} (hc : commitClaim o h p s = some u) :
    u.ctb = s.ctb := by
  unfold commitClaim at hc
  repeat' split at hc
  all_goals cases hc
  all_goals rfl

theorem ctb_releaseClaim (o : OrderId) (p : Place) (s : State) : (releaseClaim o p s).ctb = s.ctb := by
  unfold releaseClaim
  repeat' split
  all_goals rfl

theorem ctb_vacateClaim {h : Handle} {p : Place} {s u : State} (hv : vacateClaim h p s = some u) : u.ctb = s.ctb := by
  unfold vacateClaim at hv
  repeat' split at hv
  all_goals cases hv
  all_goals rfl

theorem ctb_vacateClaim_getD (h : Handle) (p : Place) (s : State) : ((vacateClaim h p s).getD s).ctb = s.ctb := by
  cases hv : vacateClaim h p s with
  | none => rfl
  | some u => exact ctb_vacateClaim hv

theorem ctb_occupyClaim {h : Handle} {p : Place} {s u : State} (ho : occupyClaim h p s = .ok u) : u.ctb = s.ctb := by
  unfold occupyClaim at ho
  repeat' split at ho
  all_goals cases ho
  all_goals rfl

end Sys2Proof.Machine
end

section
/-! SUPPORT. No operation but ADMIT makes a record live, and none lowers an exposure (R44): the relation between the state before and
after, and one lemma for each operation that writes the custody table. -/

namespace Sys2Proof.Machine

/-! ## The relation -/

/-- Every record live in `t` was live in `s`, with no higher exposure within 16 bits, and the custody table stays canonical. -/
structure ExposureKept (s t : State) : Prop where
  canonical : swf {} s.ctb.entries = true → swf {} t.ctb.entries = true
  live : swf {} s.ctb.entries = true → ∀ h q, t.pallet? h = some q →
    ∃ p, s.pallet? h = some p ∧ min Config.exposureMax p.exposure ≤ q.exposure

namespace ExposureKept

@[simp] theorem refl (s : State) : ExposureKept s s where
  canonical hs := hs
  live _ _ q hq := ⟨q, hq, Nat.min_le_right ..⟩

theorem trans {s t u : State} (hst : ExposureKept s t) (htu : ExposureKept t u) : ExposureKept s u where
  canonical hs := htu.canonical (hst.canonical hs)
  live hs h r hr := by
    obtain ⟨q, hq, hqr⟩ := htu.live (hst.canonical hs) h r hr
    obtain ⟨p, hp, hpq⟩ := hst.live hs h q hq
    exact ⟨p, hp, by omega⟩

theorem of_entries {s t : State} (h : t.ctb.entries = s.ctb.entries) : ExposureKept s t where
  canonical hs := by rw [h]; exact hs
  live _ k q hq := ⟨q, pallet_eq_of_entries h k ▸ hq, Nat.min_le_right ..⟩

theorem of_ctb {s t : State} (h : t.ctb = s.ctb) : ExposureKept s t := of_entries (congrArg Ctb.entries h)

/-- What leaves PDR and CTB alone keeps the exposures; `simp` finds the reason among the `stock` lemmas. -/
@[simp] theorem of_stock {s t : State} (h : t.stock = s.stock) : ExposureKept s t := of_ctb (ctb_eq_of_stock h)

theorem then_stock {s t u : State} (hst : ExposureKept s t) (h : u.stock = t.stock) : ExposureKept s u := hst.trans (of_stock h)

theorem forEach {α : Type} {f : α → State → State} (h : ∀ x s, ExposureKept s (f x s)) (xs : List α) (s : State) :
    ExposureKept s (s.forEach xs f) :=
  forEach_rel ExposureKept refl (fun _ _ _ => trans) f h xs s

theorem ite {c : Prop} [Decidable c] {s t u : State} (ht : ExposureKept s t) (hu : ExposureKept s u) :
    ExposureKept s (if c then t else u) := by
  split
  · exact ht
  · exact hu

/-- The write of a record that does not lower its exposure within 16 bits. -/
theorem updPallet (s : State) (h : Handle) {f : Pallet → Pallet} (hf : ∀ p, min Config.exposureMax p.exposure ≤ (f p).exposure) :
    ExposureKept s (s.updPallet h f) where
  canonical hs := entries_updPallet hs h f
  live hs k q hq := by
    rw [pallet_updPallet hs] at hq
    split at hq
    · obtain ⟨p, hp, rfl⟩ := Option.map_eq_some_iff.1 hq
      exact ⟨p, hp, hf p⟩
    · exact ⟨q, hq, Nat.min_le_right ..⟩

/-- The write of a record that leaves its exposure as it is. -/
theorem updPallet_same {s : State} {h : Handle} {f : Pallet → Pallet} (hf : ∀ p, (f p).exposure = p.exposure) :
    ExposureKept s (s.updPallet h f) :=
  updPallet s h fun p => by rw [hf p]; exact Nat.min_le_right ..

/-- An entry that becomes free has no live record. -/
theorem freeEntry (s : State) (i : Nat) (g : Fin 16) : ExposureKept s (s.setEntry i { gen := g, rec? := none }) where
  canonical := swf_sset
  live hs k q hq := by
    rw [pallet_setEntry hs] at hq
    split at hq
    · simp at hq
    · exact ⟨q, hq, Nat.min_le_right ..⟩

end ExposureKept

/-! ## CTB's claims -/

theorem exposureKept_bindClaim {h : Handle} {o : OrderId} {s u : State} (hb : bindClaim h o s = some u) : ExposureKept s u := by
  unfold bindClaim at hb
  repeat' split at hb
  all_goals cases hb
  exact .updPallet_same fun _ => rfl

theorem exposureKept_boundClaim (h : Handle) (o : OrderId) {f : Pallet → Pallet} (hf : ∀ p, (f p).exposure = p.exposure) (s : State) :
    ExposureKept s (boundClaim h o f s) := by
  unfold boundClaim
  repeat' split
  · exact .updPallet_same hf
  all_goals exact .refl s

theorem exposureKept_pickClaim (h : Handle) (o : OrderId) (s : State) : ExposureKept s (pickClaim h o s) :=
  exposureKept_boundClaim h o (f := fun p => { p with place := .carried o }) (fun _ => rfl) s
theorem exposureKept_dropClaim (h : Handle) (o : OrderId) (dest : Place) (s : State) : ExposureKept s (dropClaim h o dest s) :=
  exposureKept_boundClaim h o (f := fun p => { p with place := dest, liveOrder := none }) (fun _ => rfl) s
theorem exposureKept_unbindClaim (h : Handle) (o : OrderId) (s : State) : ExposureKept s (unbindClaim h o s) :=
  exposureKept_boundClaim h o (f := fun p => { p with liveOrder := none }) (fun _ => rfl) s

theorem exposureKept_abandonClaim (h : Handle) (o : OrderId) (r : Fin 8) (s : State) : ExposureKept s (abandonClaim h o r s) := by
  unfold abandonClaim
  repeat' split
  · refine ExposureKept.then_stock ?_ (stock_raiseAlarm ..)
    exact .updPallet_same fun _ => rfl
  all_goals exact .refl s

theorem exposureKept_retirePallet (h : Handle) (s : State) : ExposureKept s (retirePallet h s) := by
  unfold retirePallet
  split
  · exact .refl s
  next p _ =>
    have vacated : ExposureKept s ((vacateClaim h p.place s).getD s) := .of_ctb (ctb_vacateClaim_getD ..)
    refine ExposureKept.trans ?_ (.freeEntry ..)
    exact vacated.then_stock (by simp)

theorem exposureKept_retireDoorSet (d : Fin 24) (s : State) : ExposureKept s (retireDoorSet d s).2 :=
  .forEach exposureKept_retirePallet _ s

/-! ## MDS: withdrawal, the notices and creation -/

@[simp] theorem exposureKept_withdrawOrder (out : Outcome) (o : OrderId) (s : State) : ExposureKept s (withdrawOrder out o s) := by
  unfold withdrawOrder
  cases s.order? o with
  | none => exact .refl s
  | some x =>
    dsimp only
    split
    · refine ExposureKept.then_stock ?_ (stock_dispatchPass ..)
      refine ExposureKept.then_stock ?_ (stock_finishOrder ..)
      refine ExposureKept.trans (.trans ?_ (.of_ctb (ctb_releaseClaim ..))) (exposureKept_unbindClaim ..)
      cases x.terminal <;> simp
    · exact .refl s

@[simp] theorem exposureKept_holdNotice (h : Handle) (s : State) : ExposureKept s (holdNotice h s) := by
  unfold holdNotice
  repeat' split
  all_goals simp

@[simp] theorem exposureKept_sessionNotice (d : Fin 24) (s : State) : ExposureKept s (sessionNotice d s) :=
  .forEach (exposureKept_withdrawOrder _) _ s

@[simp] theorem exposureKept_withdrawTrailerGone (d : Fin 24) (s : State) : ExposureKept s (withdrawTrailerGone d s) :=
  .forEach (exposureKept_withdrawOrder _) _ s

theorem exposureKept_createOrder {i : Nat} {h : Handle} {origin : Place} {dest : Dest} {prio : Priority} {s u : State} {o : OrderId}
    {p : Place} (hc : createOrder i h origin dest prio s = .ok (o, p, u)) : ExposureKept s u := by
  unfold createOrder at hc
  dsimp only at hc
  split at hc
  · cases hc
  next hreserve =>
    split at hc
    · cases hc
    next hbind =>
      cases hc
      exact ((ExposureKept.of_ctb (ctb_reserveClaim hreserve)).trans (exposureKept_bindClaim hbind)).then_stock (by simp)

theorem exposureKept_tryMove {h : Handle} {dest : Option Dest} {prio : Priority} {s u : State} {o : OrderId} {p : Place}
    (hm : tryMove h dest prio s = .ok (o, p, u)) : ExposureKept s u := by
  unfold tryMove at hm
  repeat' split at hm
  case h_2 => exact exposureKept_createOrder hm
  all_goals cases hm

theorem exposureKept_batchElements (a b : Option Dest) (prio : Priority) (xs : List (Handle × Bool)) (s : State) :
    ExposureKept s (batchElements a b prio xs s).2 := by
  induction xs generalizing s with
  | nil => exact .refl s
  | cons x xs ih =>
    unfold batchElements
    split
    next hmove => exact (exposureKept_tryMove hmove).trans (ih _)
    next => exact .refl s
    next => exact ih s

theorem exposureKept_tryRedirect {o : OrderId} {x : Order} {dest : Dest} {s u : State} {p : Place}
    (hr : tryRedirect o x dest s = .ok (p, u)) : ExposureKept s u := by
  unfold tryRedirect at hr
  repeat' split at hr
  all_goals cases hr
  next hreserve =>
    have reserved := ExposureKept.of_ctb (ctb_reserveClaim hreserve)
    exact (reserved.trans (.of_ctb (ctb_releaseClaim ..))).then_stock (stock_updOrder ..)

/-! ## Charges (R36, R42, R43) -/

@[simp] theorem exposureKept_budgetRule (h : Handle) (s : State) : ExposureKept s (budgetRule h s) := by
  unfold budgetRule
  repeat' split
  · exact .refl s
  · refine ExposureKept.trans (.then_stock ?_ (stock_raiseAlarm ..)) (exposureKept_holdNotice ..)
    exact .updPallet_same fun _ => rfl
  · exact .refl s

/-- A charge only adds, up to the greatest exposure. -/
@[simp] theorem exposureKept_chargePallet (h : Handle) (n : Nat) (s : State) : ExposureKept s (chargePallet h n s) := by
  have charged : ExposureKept s (s.updPallet h fun p => { p with exposure := min Config.exposureMax (p.exposure + n) }) :=
    .updPallet s h fun p => by dsimp only; omega
  exact .ite (.refl s) (charged.trans (exposureKept_budgetRule ..))

@[simp] theorem exposureKept_chargeClaim (table : Vector (Option Temp) 8) (s : State) : ExposureKept s (chargeClaim table s) := by
  refine .forEach (fun h s => ?_) _ s
  split <;> simp

@[simp] theorem exposureKept_gapClaim (minutes : Nat) (s : State) : ExposureKept s (gapClaim minutes s) := by
  refine .forEach (fun h s => ?_) _ s
  repeat' split
  all_goals simp

@[simp] theorem exposureKept_accrualExpiry (s : State) : ExposureKept s (accrualExpiry s) :=
  (exposureKept_chargeClaim s.tempTable s).then_stock (stock_withTsu ..)

@[simp] theorem exposureKept_gapRule (s : State) : ExposureKept s (gapRule s) :=
  .ite (.of_stock (stock_withTsu ..)) (.ite (.refl s) ((exposureKept_gapClaim ..).then_stock (stock_withTsu ..)))

@[simp] theorem exposureKept_tsuNotice (left entered : Mode) (s : State) : ExposureKept s (tsuNotice left entered s) := by
  unfold tsuNotice
  cases entered with
  | run => exact (exposureKept_gapRule s).then_stock (by simp)
  | _ => simp

@[simp] theorem exposureKept_reevaluateClass (c : Fin 16) (s : State) : ExposureKept s (reevaluateClass c s).2 :=
  .forEach exposureKept_budgetRule _ s

/-! ## Doors -/

@[simp] theorem exposureKept_trailerGone (d : Fin 24) (s : State) : ExposureKept s (trailerGone d s) := by
  refine ExposureKept.then_stock (t := (retireDoorSet d (withdrawTrailerGone d s)).2) ?_ (by simp [trailerGone])
  exact (exposureKept_withdrawTrailerGone ..).trans (exposureKept_retireDoorSet ..)

@[simp] theorem exposureKept_resolveDoor (d : Fin 24) (s : State) : ExposureKept s (resolveDoor d s) :=
  .ite (exposureKept_trailerGone ..) (by simp)

@[simp] theorem exposureKept_clearDoorFault (d : Fin 24) (s : State) : ExposureKept s (clearDoorFault d s) := by
  have resolved : ExposureKept s (resolveDoor d (s.updDoor d fun x => { x with fault := none })) :=
    .trans (.of_stock (stock_updDoor ..)) (exposureKept_resolveDoor ..)
  exact resolved.then_stock (by simp [clearDoorFault])

@[simp] theorem exposureKept_unsealComplete (d : Fin 24) (s : State) : ExposureKept s (unsealComplete d s) := by
  have withdrawn := exposureKept_withdrawTrailerGone d s
  unfold unsealComplete
  split
  · exact (withdrawn.trans (exposureKept_retireDoorSet d _)).then_stock (by simp)
  · exact withdrawn.then_stock (by simp)

@[simp] theorem exposureKept_doorReportEffect (d : Fin 24) (s : State) : ExposureKept s (doorReportEffect d s) := by
  refine .ite ?_ <| .ite ?_ <| .ite ?_ <| .ite ?_ <| .ite ?_ <| .ite ?_ <| .ite ?_ <| .ite ?_ <| .ite ?_ <| .ite ?_ <| .ite ?_ ?_
  all_goals simp

@[simp] theorem exposureKept_reconcileDoor (d : Fin 24) (s : State) : ExposureKept s (reconcileDoor d s) := by
  unfold reconcileDoor
  dsimp only
  split
  · simp
  · refine ExposureKept.then_stock ?_ (stock_reevaluateIfClosed ..)
    refine ExposureKept.trans (t := s.updDoor d fun y => { y with remembered := none }) (.of_stock (stock_updDoor ..)) ?_
    split
    case h_3 | h_4 => exact .trans (.of_stock (by simp)) (exposureKept_doorReportEffect ..)
    all_goals simp

@[simp] theorem exposureKept_takeDoorReport (d : Fin 24) (r : DoorReport) (s : State) : ExposureKept s (takeDoorReport d r s) := by
  refine ExposureKept.trans (t := s.updDoor d fun x => { x with last := r }) (.of_stock (stock_updDoor ..)) ?_
  unfold takeDoorReport
  split <;> simp

/-! ## Terminal reports, and the lanes -/

@[simp] theorem exposureKept_takePicked (t : Fin 16) (tag : Tag) (place : Nat) (s : State) : ExposureKept s (takePicked t tag place s) := by
  unfold takePicked
  repeat' split
  case h_2 o _ _ x _ _ _ _ hvacate =>
    have vacated := ExposureKept.of_ctb (ctb_vacateClaim hvacate)
    exact (vacated.trans (exposureKept_pickClaim x.pallet o _)).then_stock (by simp)
  all_goals simp

@[simp] theorem exposureKept_completeDrop (t : Fin 16) (o : OrderId) (x : Order) (s : State) :
    ExposureKept s (completeDrop t o x s) :=
  (exposureKept_dropClaim x.pallet o x.dest s).then_stock (by simp [completeDrop, stock_forEach])

@[simp] theorem exposureKept_takeDropped (t : Fin 16) (place : Nat) (s : State) : ExposureKept s (takeDropped t place s) := by
  unfold takeDropped
  repeat' split
  case h_2 hthrough _ _ hcommit =>
    have through := ExposureKept.of_stock (stock_dropThrough hthrough)
    exact (through.trans (.of_ctb (ctb_commitClaim hcommit))).trans (exposureKept_completeDrop ..)
  all_goals simp

theorem exposureKept_abandonOrder {o : OrderId} {x : Order} {room : Nat} {out : Outcome} {s u : State}
    (ha : abandonOrder o x room out s = some u) : ExposureKept s u := by
  unfold abandonOrder at ha
  repeat' split at ha
  all_goals cases ha
  next r _ _ _ hoccupy =>
    have released := (ExposureKept.of_ctb (ctb_occupyClaim hoccupy)).trans (.of_ctb (ctb_releaseClaim o x.dest _))
    exact (released.trans (exposureKept_abandonClaim x.pallet o r _)).then_stock (by simp)

@[simp] theorem exposureKept_takeAbandon (t : Fin 16) (room : Nat) (s : State) : ExposureKept s (takeAbandon t room s) := by
  unfold takeAbandon
  repeat' split
  case h_2 habandon => exact (exposureKept_abandonOrder habandon).then_stock (by simp)
  all_goals simp

@[simp] theorem exposureKept_takeSubmit (t : Fin 16) (tag : Tag) (s : State) : ExposureKept s (takeSubmit t tag s) := by
  have submitted {o : OrderId} {u : State} (hs : trySubmit t tag s = .ok (o, u)) : ExposureKept s u := by
    unfold trySubmit at hs
    repeat' split at hs
    all_goals cases hs
    next hcreate => exact exposureKept_createOrder hcreate
  unfold takeSubmit
  split
  · simp
  next hs => exact (submitted hs).then_stock (by simp)

@[simp] theorem exposureKept_takeReady (t : Fin 16) (handsFull : Bool) (s : State) : ExposureKept s (takeReady t handsFull s) := by
  simp [takeReady]

@[simp] theorem exposureKept_takeTerminalReport (t : Fin 16) (rep : Report) (s : State) :
    ExposureKept s (takeTerminalReport t rep s) := by
  have heard : ExposureKept s (terminalHeard t s) := .of_stock (stock_terminalHeard ..)
  unfold takeTerminalReport
  cases rep with
  | picked | dropped | abandon | submit | ready => exact heard.trans (by simp)
  | _ => exact .refl s

@[simp] theorem exposureKept_takeReport (st : StationId) (fresh : Bool) (rep : Report) (s : State) :
    ExposureKept s (takeReport st fresh rep s) := by
  unfold takeReport
  split <;> simp

@[simp] theorem exposureKept_goodAnswer (l : Lane) (st : StationId) (rep : Report) (s : State) :
    ExposureKept s (goodAnswer l st rep s) := by
  unfold goodAnswer
  exact ExposureKept.then_stock (.trans (.of_stock (by simp)) (exposureKept_takeReport ..)) (stock_pollEnded ..)

/-! ## Modes and resets -/

@[simp] theorem exposureKept_blockNotice (left entered : Mode) (b : Block) (s : State) : ExposureKept s (blockNotice left entered b s) := by
  cases b <;> simp [blockNotice]

@[simp] theorem exposureKept_enterMode (entered : Mode) (order : List Block) (s : State) :
    ExposureKept s (enterMode entered order s) :=
  .trans (.of_stock (by simp)) (.forEach (exposureKept_blockNotice _ _) _ _)

/-- A change of mode after what leaves PDR and CTB alone. -/
theorem exposureKept_enterMode_of_stock {s t : State} (entered : Mode) (order : List Block) (h : t.stock = s.stock) :
    ExposureKept s (enterMode entered order t) :=
  .trans (.of_stock h) (exposureKept_enterMode ..)

@[simp] theorem exposureKept_enterRetain (order : List Block) (s : State) : ExposureKept s (enterRetain order s) :=
  .ite (.refl s) (exposureKept_enterMode_of_stock _ _ (by simp))

@[simp] theorem exposureKept_takeSupplyFail (order : List Block) (s : State) : ExposureKept s (takeSupplyFail order s) := by
  unfold takeSupplyFail
  refine .ite (.trans (.of_stock (by simp)) (exposureKept_enterRetain ..)) ?_
  split
  case h_1 | h_2 => exact exposureKept_enterMode_of_stock _ _ (by simp)
  all_goals simp

@[simp] theorem exposureKept_takeBatteryLow (order : List Block) (s : State) : ExposureKept s (takeBatteryLow order s) := by
  unfold takeBatteryLow
  exact .ite (.trans (.of_stock (by simp)) (exposureKept_enterRetain ..)) (by simp)

@[simp] theorem exposureKept_takeSupplyReturn (order : List Block) (s : State) : ExposureKept s (takeSupplyReturn order s) := by
  unfold takeSupplyReturn
  dsimp only
  repeat' split
  case h_3 => simp
  all_goals exact exposureKept_enterMode_of_stock _ _ (by simp)

@[simp] theorem exposureKept_makeChecks (order : List Block) (s : State) : ExposureKept s (makeChecks order s) := by
  unfold makeChecks
  split
  · exact exposureKept_enterMode_of_stock _ _ (by simp)
  · simp [stock_forEach]

@[simp] theorem exposureKept_rollCallPassed (order : List Block) (s : State) : ExposureKept s (rollCallPassed order s) :=
  exposureKept_enterMode_of_stock _ _ (by simp)

@[simp] theorem exposureKept_rollCallTimeout (order : List Block) (s : State) : ExposureKept s (rollCallTimeout order s) :=
  exposureKept_enterMode_of_stock _ _ (by simp)

@[simp] theorem exposureKept_sampleLines (supplyFail batteryLow : Bool) (order : List Block) (s : State) :
    ExposureKept s (sampleLines supplyFail batteryLow order s) := by
  unfold sampleLines
  cases supplyFail <;> cases batteryLow
  case true.true => exact (exposureKept_takeBatteryLow ..).trans (exposureKept_takeSupplyFail ..)
  all_goals simp

/-- After a cold start no record is live (R45). -/
@[simp] theorem exposureKept_coldStart (strap : Strap) (supplyFail batteryLow : Bool) (order : List Block) (s : State) :
    ExposureKept s (coldStart strap supplyFail batteryLow order s) := by
  refine ExposureKept.trans ⟨fun _ => rfl, fun _ h q hq => ?_⟩ (exposureKept_sampleLines ..)
  obtain ⟨-, -, hrec⟩ := pallet_eq_some hq
  cases hrec

@[simp] theorem exposureKept_warmRestart (supplyFail batteryLow : Bool) (order : List Block) (s : State) :
    ExposureKept s (warmRestart supplyFail batteryLow order s) :=
  .trans (.of_stock (by simp)) (exposureKept_sampleLines ..)

end Sys2Proof.Machine
end

section
/-! SUPPORT. What a hand-off can do (R174), and what every accepted reply of an owner keeps. -/

namespace Sys2Proof.Machine

/-- A hand-off does nothing, answers a refusal alone, or answers what the owner accepted over the owner's changes. -/
theorem handOff_cases (code : Byte) (k : List Byte → State → Reply) (s : State) :
    handOff code k s = s
    ∨ ∃ f t, s.takeHead = some (f, t)
      ∧ ((∃ rc, handOff code k s = pushAnswer f rc [] t)
        ∨ ∃ rc results u, k f.args t = .ok (rc, results, u) ∧ handOff code k s = settle (pushAnswer f rc results u)) := by
  unfold handOff
  cases hhead : s.takeHead with
  | none => exact .inl rfl
  | some head =>
    obtain ⟨f, t⟩ := head
    dsimp only
    split
    · refine .inr ⟨f, t, rfl, ?_⟩
      unfold decideRequest
      split
      next rc _ => exact .inl ⟨rc, rfl⟩
      next =>
        cases hreply : k f.args t with
        | error rc => exact .inl ⟨rc, rfl⟩
        | ok answer => exact .inr ⟨answer.1, answer.2.1, answer.2.2, rfl, rfl⟩
    · exact .inl rfl

/-- Where a reply accepts, the owner's changes keep `R`. -/
def KeptBy (R : State → State → Prop) (s : State) : Reply → Prop
  | .error _ => True
  | .ok answer => R s answer.2.2

section
variable {R : State → State → Prop} {s : State}

@[simp] theorem keptBy_error (rc : ResultCode) : KeptBy R s (.error rc) := trivial
@[simp] theorem keptBy_ok {answer : ResultCode × List Byte × State} : KeptBy R s (.ok answer) ↔ R s answer.2.2 := Iff.rfl
@[simp] theorem keptBy_done {results : List Byte} {u : State} : KeptBy R s (done results u) ↔ R s u := keptBy_ok
@[simp] theorem keptBy_started {u : State} : KeptBy R s (started u) ↔ R s u := keptBy_ok

theorem keptBy_ite {c : Prop} [Decidable c] {a b : Reply} (ha : c → KeptBy R s a) (hb : ¬c → KeptBy R s b) :
    KeptBy R s (if c then a else b) := by
  split
  next hc => exact ha hc
  next hc => exact hb hc

theorem keptBy_noArgs {k : State → Reply} (h : KeptBy R s (k s)) (args : List Byte) : KeptBy R s (noArgs k args s) :=
  keptBy_ite (fun _ => h) fun _ => keptBy_error _

theorem keptBy_oneFin {n : Nat} {k : Fin n → State → Reply} (h : ∀ i, KeptBy R s (k i s)) (args : List Byte) :
    KeptBy R s (oneFin n k args s) := by
  unfold oneFin
  repeat' split
  next i _ => exact h i
  all_goals exact keptBy_error _

theorem keptBy_oneHandle {k : Handle → Pallet → State → Reply} (h : ∀ x p, KeptBy R s (k x p s)) (args : List Byte) :
    KeptBy R s (oneHandle k args s) := by
  unfold oneHandle
  dsimp only
  repeat' split
  next p _ => exact h _ p
  all_goals exact keptBy_error _

end
end Sys2Proof.Machine
end

section
/-! SUPPORT. Every request but ADMIT keeps the exposures (R44). -/

namespace Sys2Proof.Machine

/-! ## CTB -/

theorem exposureKept_setClass (c : Fin 16) (x : ClassRec) (s : State) : ExposureKept s (setClass c x s) := .of_entries rfl

theorem exposureKept_storeClass (c : Fin 16) (x : ClassRec) (s : State) : KeptBy ExposureKept s (storeClass c x s) := by
  refine keptBy_ite (fun _ => ?_) fun _ => ?_
  · exact keptBy_ite (fun _ => keptBy_error _) fun _ => keptBy_done.2 (exposureKept_setClass ..)
  · exact keptBy_done.2 ((exposureKept_setClass ..).trans (exposureKept_reevaluateClass ..))

theorem exposureKept_setQuality (h : Handle) (s : State) : ExposureKept s (setQuality h s) := by
  refine ExposureKept.trans ?_ (exposureKept_holdNotice ..)
  exact .updPallet_same fun _ => rfl

theorem exposureKept_correctPlace {h : Handle} {p : Pallet} {new : Place} {s u : State} (hc : correctPlace h p new s = .ok u) :
    ExposureKept s u := by
  unfold correctPlace at hc
  repeat' split at hc
  all_goals cases hc
  · exact .refl s
  next hoccupy =>
    refine ExposureKept.trans (.of_ctb ?_) (.updPallet_same fun _ => rfl)
    rw [ctb_vacateClaim_getD, ctb_occupyClaim hoccupy]

theorem exposureKept_confirmPlace (h : Handle) (s : State) : ExposureKept s (confirmPlace h s) := by
  refine ExposureKept.then_stock ?_ (stock_clearAlarm ..)
  exact .updPallet_same fun _ => rfl

/-! ## MDS -/

theorem exposureKept_cancelOrder (o : OrderId) (x : Order) (room : Option Nat) (s : State) :
    KeptBy ExposureKept s (cancelOrder o x room s) := by
  have carried (t : Fin 16) (r : Nat) : KeptBy ExposureKept s (cancelCarried o x t r s) := by
    unfold cancelCarried
    split
    · simp
    next habandon => exact keptBy_done.2 ((exposureKept_abandonOrder habandon).then_stock (by simp))
  unfold cancelOrder
  cases x.state with
  | carrying =>
    dsimp only
    split
    · exact keptBy_ite (fun _ => carried _ _) fun _ => keptBy_error _
    · simp
  | _ => simp

theorem exposureKept_setAllHolds (value : Bool) (s : State) : KeptBy ExposureKept s (setAllHolds value s) := by
  simp [setAllHolds]

theorem exposureKept_moveCollect (s : State) : KeptBy ExposureKept s (moveCollect s) := by
  simp [moveCollect, stock_forEach]

/-! ## DKC and DFC -/

theorem exposureKept_sealDoor (d : Fin 24) (ref : BitVec 32) (dir : Direction) (expected : Nat) (s : State) :
    KeptBy ExposureKept s (sealDoor d ref dir expected s) := by
  have session : ExposureKept s (sealSession d ref dir expected s) := by
    unfold sealSession
    split
    · exact .ite (.trans (.of_stock (stock_updDoor ..)) (exposureKept_sessionNotice ..)) (by simp)
    · simp
  unfold sealDoor
  repeat' split
  · simp
  · simp
  · exact keptBy_started.2 (session.then_stock (by simp))

theorem exposureKept_openDoor (d : Fin 24) (s : State) : KeptBy ExposureKept s (openDoor d s) := by
  unfold openDoor
  dsimp only
  repeat' split
  all_goals simp

theorem exposureKept_closeDoor (d : Fin 24) (force : Bool) (s : State) : KeptBy ExposureKept s (closeDoor d force s) := by
  unfold closeDoor
  dsimp only
  repeat' split
  all_goals simp

theorem exposureKept_releaseDoor (d : Fin 24) (s : State) : KeptBy ExposureKept s (releaseDoor d s) := by
  unfold releaseDoor
  repeat' split
  all_goals simp

theorem exposureKept_resolveFault (d : Fin 24) (s : State) : KeptBy ExposureKept s (resolveFault d s) := by
  unfold resolveFault
  dsimp only
  split <;> simp

theorem exposureKept_onConfigured {k : Fin 12 → State → Reply} {e : Fin 12} {s : State} (h : KeptBy ExposureKept s (k e s)) :
    KeptBy ExposureKept s (onConfigured k e s) :=
  keptBy_ite (fun _ => h) fun _ => keptBy_error _

theorem exposureKept_requestDefrost (e : Fin 12) (s : State) : KeptBy ExposureKept s (requestDefrost e s) := by
  unfold requestDefrost
  split <;> simp

theorem exposureKept_abortDefrost (e : Fin 12) (s : State) : KeptBy ExposureKept s (abortDefrost e s) := by
  unfold abortDefrost abortToIdle
  split <;> simp

theorem exposureKept_releaseEvap (e : Fin 12) (s : State) : KeptBy ExposureKept s (releaseEvap e s) := by
  unfold releaseEvap releaseFault
  split <;> simp

/-! ## MOC and LKP -/

theorem exposureKept_setSite (clock : Option Time) (allowance : Option Nat) (s : State) :
    KeptBy ExposureKept s (setSite clock allowance s) := by
  unfold setSite
  repeat' split
  all_goals simp

theorem exposureKept_startSite (order : List Block) (s : State) : KeptBy ExposureKept s (startSite order s) := by
  unfold startSite
  repeat' split
  · simp
  · simp
  · exact keptBy_started.2 (exposureKept_enterMode_of_stock _ _ (by simp))

theorem exposureKept_stopSite (order : List Block) (s : State) : KeptBy ExposureKept s (stopSite order s) := by
  unfold stopSite
  repeat' split
  · simp
  · simp
  · exact keptBy_done.2 (exposureKept_enterMode_of_stock _ _ (by simp))

theorem exposureKept_returnCause (c : Cause) (s : State) : KeptBy ExposureKept s (returnCause c s) := by
  simp [returnCause]

theorem exposureKept_returnTop (s : State) : KeptBy ExposureKept s (returnTop s) := by
  unfold returnTop
  split
  · exact exposureKept_returnCause ..
  · simp

/-! ## Every owner -/

theorem exposureKept_roomSetReply (args : List Byte) (s : State) : KeptBy ExposureKept s (roomSetReply args s) := by
  have kindSet (r : Fin 8) (k : RoomKind) : ExposureKept s (setRoomKind r k s) := by
    unfold setRoomKind
    refine ExposureKept.then_stock ?_ (stock_evaluateRoom ..)
    exact .of_ctb rfl
  unfold roomSetReply
  repeat' split
  all_goals simp [kindSet]

theorem exposureKept_slotMapSetReply (args : List Byte) (s : State) : KeptBy ExposureKept s (slotMapSetReply args s) := by
  have mapSet (ending : Vector Nat 8) : ExposureKept s (setSlotMap ending s) := .of_ctb rfl
  unfold slotMapSetReply
  dsimp only
  repeat' split
  all_goals simp [mapSet]

theorem exposureKept_slotBlockReply (args : List Byte) (s : State) : KeptBy ExposureKept s (slotBlockReply args s) := by
  have slotSet (n : Nat) (v : SlotState) : ExposureKept s (s.setSlot n v) := .of_ctb rfl
  unfold slotBlockReply blockSlot
  repeat' split
  all_goals simp [slotSet]

theorem exposureKept_placeCorrectReply (args : List Byte) (s : State) : KeptBy ExposureKept s (placeCorrectReply args s) := by
  unfold placeCorrectReply
  dsimp only
  repeat' split
  case h_2 hcorrect => exact keptBy_done.2 ((exposureKept_correctPlace hcorrect).trans (exposureKept_confirmPlace ..))
  all_goals simp

theorem exposureKept_holdClearReply (args : List Byte) (s : State) : KeptBy ExposureKept s (holdClearReply args s) := by
  unfold holdClearReply
  dsimp only
  repeat' split
  case isTrue => exact keptBy_done.2 (.updPallet_same fun _ => rfl)
  all_goals simp

theorem exposureKept_moveReply (args : List Byte) (s : State) : KeptBy ExposureKept s (moveReply args s) := by
  unfold moveReply
  repeat' split
  case h_2 hmove => exact keptBy_done.2 ((exposureKept_tryMove hmove).then_stock (stock_dispatchPass ..))
  all_goals simp

theorem exposureKept_moveBatchReply (args : List Byte) (s : State) : KeptBy ExposureKept s (moveBatchReply args s) := by
  unfold moveBatchReply
  split
  · simp
  · exact keptBy_done.2 ((exposureKept_batchElements ..).then_stock (stock_dispatchPass ..))

theorem exposureKept_moveRedirectReply (args : List Byte) (s : State) : KeptBy ExposureKept s (moveRedirectReply args s) := by
  unfold moveRedirectReply
  dsimp only
  repeat' split
  case h_2 hredirect => exact keptBy_done.2 ((exposureKept_tryRedirect hredirect).then_stock (stock_afterRedirect ..))
  all_goals simp

theorem exposureKept_ackPair (k : AlarmKind) (sub : Subject) (s : State) : KeptBy ExposureKept s (ackPair k sub s) := by
  unfold ackPair
  repeat' split
  all_goals simp

theorem exposureKept_readAlarm (k : AlarmKind) (sub : Subject) (s : State) : KeptBy ExposureKept s (readAlarm k sub s) := by
  unfold readAlarm
  split <;> simp

/-- Every request but ADMIT keeps the exposures: reads and refusals change nothing, and each other owner does one of the operations
above. -/
theorem exposureKept_ownerReply {c : Instr} (hc : c ≠ .admission) (args : List Byte) (s : State) :
    KeptBy ExposureKept s (ownerReply c args s) := by
  cases c
  case admission => exact absurd rfl hc
  all_goals simp only [ownerReply]
  case readIdent | readMode => exact keptBy_noArgs (by simp) args
  case startSite order => exact keptBy_noArgs (exposureKept_startSite order s) args
  case stopSite order => exact keptBy_noArgs (exposureKept_stopSite order s) args
  case linkReset => exact keptBy_noArgs (by simp [linkReset]) args
  case moveCollect => exact keptBy_noArgs (exposureKept_moveCollect s) args
  case alarmOverflowClear => exact keptBy_noArgs (by simp [clearOverflow]) args
  case roomRead | roomCount | laneRead | terminalRead | doorRead | roomTempRead | probeRead | evapRead =>
    exact keptBy_oneFin (by simp) args
  case doorOpen => exact keptBy_oneFin (fun d => exposureKept_openDoor d s) args
  case doorRelease => exact keptBy_oneFin (fun d => exposureKept_releaseDoor d s) args
  case doorClearFault => exact keptBy_oneFin (fun d => exposureKept_resolveFault d s) args
  case defrostRequest => exact keptBy_oneFin (fun e => exposureKept_onConfigured (exposureKept_requestDefrost e s)) args
  case defrostAbort => exact keptBy_oneFin (fun e => exposureKept_onConfigured (exposureKept_abortDefrost e s)) args
  case evapRelease => exact keptBy_oneFin (fun e => exposureKept_onConfigured (exposureKept_releaseEvap e s)) args
  case palletRead => exact keptBy_oneHandle (by simp) args
  case retire =>
    exact keptBy_oneHandle
      (fun h _ => keptBy_ite (fun _ => keptBy_error _) fun _ => keptBy_done.2 (exposureKept_retirePallet h s)) args
  case roomSet => exact exposureKept_roomSetReply args s
  case slotMapSet => exact exposureKept_slotMapSetReply args s
  case slotBlock => exact exposureKept_slotBlockReply args s
  case placeCorrect => exact exposureKept_placeCorrectReply args s
  case holdClear => exact exposureKept_holdClearReply args s
  case move => exact exposureKept_moveReply args s
  case moveBatch => exact exposureKept_moveBatchReply args s
  case moveRedirect => exact exposureKept_moveRedirectReply args s
  case readAttention | attentionMask | siteSet | slotRead | classSet | findTag | census | holdSet | moveCancel | moveRead
      | dispatchHold | terminalSet | doorSet | doorSeal | doorClose | probeSet | thermalSet | evapSet | alarmList | alarmAck
      | alarmRead =>
    simp only [readAttentionReply, attentionMaskReply, siteSetReply, slotReadReply, classSetReply, findTagReply, censusReply,
      holdSetReply, moveCancelReply, moveReadReply, dispatchHoldReply, terminalSetReply, doorSetReply, doorSealReply,
      doorCloseReply, probeSetReply, thermalSetReply, evapSetReply, alarmListReply, alarmAckReply, alarmReadReply]
    repeat' split
    all_goals
      simp [exposureKept_returnTop, exposureKept_returnCause, exposureKept_setSite, exposureKept_storeClass, exposureKept_setQuality,
        exposureKept_cancelOrder, exposureKept_setAllHolds, exposureKept_sealDoor, exposureKept_closeDoor, exposureKept_ackPair,
        exposureKept_readAlarm, setTerminal, setProbe, setEvap, ackAll]
  all_goals exact keptBy_error _

end Sys2Proof.Machine
end

section
/-! SUPPORT. What a step does to the exposures of the live records (R44): ADMIT starts a record at 0, and every other step keeps them. -/

namespace Sys2Proof.Machine

/-! ## ADMIT (R29, R30) -/

/-- R23: the lowest-numbered free entry is one of the 2048, and it is free. -/
theorem freeEntry_spec {s : State} {i : Nat} (h : s.freeEntry = some i) : i < Config.palletEntries ∧ (s.entry i).rec? = none := by
  obtain ⟨-, hi, hfree, -⟩ := findUp_some.1 h
  exact ⟨by omega, of_decide_eq_true hfree⟩

/-- An ADMIT that is accepted puts a record into the lowest free entry, and its session is counted (R30, R96). -/
theorem tryAdmit_accepts {tag : Tag} {c : Fin 16} {d : Fin 24} {s u : State} {rc : ResultCode} {results : List Byte}
    (h : tryAdmit tag c d s = .ok (rc, results, u)) :
    ∃ i, s.freeEntry = some i ∧ u = (admitPallet i tag c d (countPallet d s)).2 := by
  unfold tryAdmit at h
  split at h
  · cases h
  · split at h
    · cases h
    · split at h
      · cases h
      next i hfree =>
        unfold admissionClaim at h
        split at h
        · cases h
        next hclaim =>
          split at hclaim <;> cases hclaim
          cases h
          exact ⟨i, hfree, rfl⟩

theorem admitReply_accepts {args : List Byte} {s u : State} {rc : ResultCode} {results : List Byte}
    (h : admitReply args s = .ok (rc, results, u)) :
    ∃ i tag c d, s.freeEntry = some i ∧ u = (admitPallet i tag c d (countPallet d s)).2 := by
  unfold admitReply at h
  repeat' split at h
  next c d _ _ =>
    obtain ⟨i, hfree, hu⟩ := tryAdmit_accepts h
    exact ⟨i, _, c, d, hfree, hu⟩
  all_goals cases h

/-- An admission makes one more record live, with exposure 0, and changes no other. -/
theorem admitPallet_live {i : Nat} {tag : Tag} {c : Fin 16} {d : Fin 24} {s : State} (hs : swf {} s.ctb.entries = true)
    (hfree : (s.entry i).rec? = none) {h : Handle} {q : Pallet} (hq : (admitPallet i tag c d s).2.pallet? h = some q) :
    s.pallet? h = some q ∨ s.pallet? h = none ∧ q.exposure = 0 := by
  have hnone (hi : h.index.1 = i) : s.pallet? h = none := by
    refine Option.eq_none_iff_forall_ne_some.2 fun p hp => ?_
    obtain ⟨-, -, hrec⟩ := pallet_eq_some hp
    rw [hi, hfree] at hrec
    cases hrec
  have hread := hq
  unfold admitPallet at hread
  rw [pallet_eq_of_entries (entries_updDoorPallets ..), pallet_setEntry hs] at hread
  split at hread
  next hi =>
    split at hread
    · cases hread
      exact .inr ⟨hnone hi, rfl⟩
    · cases hread
  next => exact .inl hread

theorem admission_live {s t : State} (hs : swf {} s.ctb.entries = true) (h : exec .admission s = .next t) {k : Handle} {q : Pallet}
    (hq : t.pallet? k = some q) : s.pallet? k = some q ∨ s.pallet? k = none ∧ q.exposure = 0 := by
  rw [exec_eq_handOff (code := 0x21) rfl, Host.Outcome.next.injEq] at h
  subst h
  rcases handOff_cases 0x21 (ownerReply .admission) s with hidle | ⟨f, t, hhead, ⟨rc, hrefused⟩ | ⟨rc, results, u, hreply, hdone⟩⟩
  · rw [hidle] at hq
    exact .inl hq
  · rw [hrefused, pallet_eq_of_stock ((stock_pushAnswer ..).trans (stock_takeHead hhead))] at hq
    exact .inl hq
  · obtain ⟨i, tag, c, d, hfree, rfl⟩ := admitReply_accepts hreply
    have hstock : (countPallet d t).stock = s.stock := (stock_countPallet d t).trans (stock_takeHead hhead)
    have hentry : ((countPallet d t).entry i).rec? = none := by
      rw [State.entry, ctb_eq_of_stock (stock_countPallet d t)]
      exact (freeEntry_spec hfree).2
    rw [hdone, pallet_eq_of_stock ((stock_settle _).trans (stock_pushAnswer ..))] at hq
    rw [← pallet_eq_of_stock hstock]
    exact admitPallet_live (by rw [ctb_eq_of_stock hstock]; exact hs) hentry hq

/-! ## Every step -/

theorem exposureKept_handOff {code : Byte} {k : List Byte → State → Reply} (hk : ∀ args s, KeptBy ExposureKept s (k args s))
    (s : State) : ExposureKept s (handOff code k s) := by
  rcases handOff_cases code k s with hidle | ⟨f, t, hhead, ⟨rc, hrefused⟩ | ⟨rc, results, u, hreply, hdone⟩⟩
  · rw [hidle]
    exact .refl s
  · rw [hrefused]
    exact .of_stock (by simp [stock_takeHead hhead])
  · have accepted : ExposureKept t u := by simpa [hreply] using hk f.args t
    rw [hdone]
    exact (ExposureKept.of_stock (stock_takeHead hhead)).trans (accepted.then_stock (by simp))

theorem exposureKept_reportRow (l : Lane) (ofRow : Report → Bool) (received : List Byte) (s : State) :
    ExposureKept s (reportRow l ofRow received s) := by
  unfold reportRow
  repeat' split
  · exact (exposureKept_goodAnswer ..).then_stock (stock_settle ..)
  all_goals exact .refl s

theorem exposureKept_missedRow (l : Lane) (received : List Byte) (s : State) : ExposureKept s (missedRow l received s) := by
  unfold missedRow
  split <;> simp

/-- A row that acts when its deadline has come, or its event can occur, and does nothing else. -/
theorem exposureKept_settle_ite {c : Prop} [Decidable c] {s u : State} (h : ExposureKept s u) :
    ExposureKept s (if c then settle u else s) :=
  .ite (h.then_stock (stock_settle u)) (.refl s)

/-- Every command but ADMIT keeps the exposures. -/
theorem exposureKept_exec {c : Instr} (hc : c ≠ .admission) {s t : State} (h : exec c s = .next t) : ExposureKept s t := by
  cases hcode : requestCode c with
  | some code =>
    rw [exec_eq_handOff hcode] at h
    cases h
    exact exposureKept_handOff (exposureKept_ownerReply hc) s
  | none =>
    cases c <;> simp only [requestCode, reduceCtorEq] at hcode
    all_goals
      injection h with h
      subst h
    case exchangeBegin => exact .of_stock (by simp [beginExchange])
    case exchangeEnd | unknownRequest => simp
    case missedPoll => exact exposureKept_missedRow ..
    case doorStatus | probeSetReport | controllerStatus | picked | dropped | abandon | submit | readyReport =>
      exact exposureKept_reportRow ..
    case coldStart strap supplyFail batteryLow order =>
      exact (exposureKept_coldStart strap supplyFail batteryLow order s).then_stock (stock_settle _)
    case warmRestart supplyFail batteryLow order =>
      exact (exposureKept_warmRestart supplyFail batteryLow order s).then_stock (stock_settle _)
    case supplyFailActive order =>
      exact .ite (.refl s) ((exposureKept_takeSupplyFail order s).then_stock (stock_settle _))
    case batteryLowActive order =>
      exact .ite (.refl s) ((exposureKept_takeBatteryLow order s).then_stock (stock_settle _))
    case dispatchRetryExpiry => exact .ite (.of_stock (by simp [retryExpiry])) (.refl s)
    all_goals
      refine exposureKept_settle_ite ?_
      simp [sealExpiry, openWaitExpiry, frostTick, deferralExpiry, maxHeatExpiry]

theorem exposureKept_step {s t : State} (h : step s = .next t)
    (hc : ∀ rest, s.pending ≠ .admission :: rest) : ExposureKept s t := by
  unfold step at h
  split at h
  · cases h
    simp
  next c rest hpending =>
    have hne : c ≠ .admission := by
      rintro rfl
      exact hc rest hpending
    exact (ExposureKept.of_stock (stock_withPending s rest)).trans (exposureKept_exec hne h)

/-- No step lowers the exposure of a record that is live before and after it (R44). -/
theorem exposure_le_of_step {s t : State} (hs : swf {} s.ctb.entries = true) (h : step s = .next t) {k : Handle} {p q : Pallet}
    (hp : s.pallet? k = some p) (hq : t.pallet? k = some q) (hbound : p.exposure ≤ Config.exposureMax) : p.exposure ≤ q.exposure := by
  by_cases hadmit : ∃ rest, s.pending = .admission :: rest
  · obtain ⟨rest, hpending⟩ := hadmit
    rw [step, hpending] at h
    have hlive := admission_live (s := s.withPending rest) hs h hq
    rw [pallet_eq_of_stock (stock_withPending s rest), hp] at hlive
    obtain hsame | ⟨hnone, -⟩ := hlive
    · cases hsame
      exact Nat.le_refl _
    · cases hnone
  · obtain ⟨p', hp', hle⟩ := (exposureKept_step h (not_exists.1 hadmit)).live hs k q hq
    rw [hp] at hp'
    cases hp'
    omega

/-- Settles O14: a step other than ADMIT keeps the exposures of the live records, and ADMIT leaves them and starts its own at 0. -/
theorem exposureNeverDecreases : Obligations.ExposureNeverDecreases := by
  unfold Obligations.ExposureNeverDecreases
  constructor
  · intro s t h p q hcanonical hbounded hstep hp hq
    exact exposure_le_of_step hcanonical.2.1 hstep hp hq (hbounded.2 h p hp)
  · intro s t h q hcanonical hexec hnone hq
    obtain hsome | ⟨-, hzero⟩ := admission_live hcanonical.2.1 hexec hq
    · rw [hnone] at hsome
      cases hsome
    · exact hzero

end Sys2Proof.Machine
end

section
/-! SUPPORT. The evaluation of a room (R110 to R112), clause by clause: its record, its alarm claims and the ROOM cause. -/

namespace Sys2Proof.Machine

/-! ## The record of a watched room -/

section
variable {x : RoomThermal} {now : Time}

theorem evaluated_of_unknown (hk : x.known = false) :
    evaluated now x = { x with state := .stale, staleSince := some (x.staleSince.getD now) } := by
  simp [evaluated, hk]

theorem evaluated_of_le (hk : x.known = true) (ht : x.temp ≤ x.limit) :
    evaluated now x = { x with state := .normal, warmSince := none, staleSince := none, staleRaised := false } := by
  simp [evaluated, hk, ht]

theorem evaluated_of_excursion (hk : x.known = true) (ht : x.limit < x.temp) (hx : x.state = .excursion) :
    evaluated now x = { x with staleSince := none, staleRaised := false } := by
  simp [evaluated, hk, Int.not_le.2 ht, hx]

theorem evaluated_of_hot (hk : x.known = true) (ht : x.limit < x.temp) (hx : x.state ≠ .excursion) :
    evaluated now x = { x with
      state := if x.warmSince.getD now + x.grace ≤ now ∧ x.maskUntil ≤ now then .excursion else .warm
      warmSince := some (x.warmSince.getD now), staleSince := none, staleRaised := false } := by
  simp [evaluated, hk, Int.not_le.2 ht, hx]

theorem late_of_known (hk : x.known = true) : x.late now = false := by simp [RoomThermal.late, hk]

theorem late_iff (hk : x.known = false) :
    x.late now = true ↔ x.staleRaised = false ∧ x.staleSince.getD now + 120 ≤ now := by
  simp only [RoomThermal.late, hk, Bool.not_false, Bool.true_and, Bool.and_eq_true, Bool.not_eq_true', decide_eq_true_eq]
  rfl

/-- The judged record is the evaluated one with the stale alarm's flag, then the deadlines. -/
theorem judged_fields (x : RoomThermal) (now : Time) :
    (x.judged now).state = (evaluated now x).state ∧ (x.judged now).warmSince = (evaluated now x).warmSince
    ∧ (x.judged now).staleSince = (evaluated now x).staleSince
    ∧ (x.judged now).staleRaised = (if x.late now then true else (evaluated now x).staleRaised) := by
  unfold RoomThermal.judged
  split <;> exact ⟨rfl, rfl, rfl, rfl⟩

/-- What no evaluation changes of a record. -/
theorem judged_kept (x : RoomThermal) (now : Time) :
    (x.judged now).limit = x.limit ∧ (x.judged now).grace = x.grace ∧ (x.judged now).mask = x.mask ∧ (x.judged now).temp = x.temp
    ∧ (x.judged now).known = x.known ∧ (x.judged now).maskUntil = x.maskUntil ∧ (x.judged now).coilExcluded = x.coilExcluded := by
  unfold RoomThermal.judged evaluated
  repeat' split
  all_goals exact ⟨rfl, rfl, rfl, rfl, rfl, rfl, rfl⟩

theorem judged_of_unknown (hk : x.known = false) :
    (x.judged now).state = .stale ∧ (x.judged now).staleSince = some (x.staleSince.getD now)
    ∧ (x.judged now).warmSince = x.warmSince := by
  obtain ⟨hstate, hwarm, hstale, -⟩ := judged_fields x now
  rw [hstate, hwarm, hstale, evaluated_of_unknown hk]
  exact ⟨rfl, rfl, rfl⟩

theorem judged_staleRaised_of_unknown (hk : x.known = false) :
    (x.judged now).staleRaised = (if x.late now then true else x.staleRaised) := by
  obtain ⟨-, -, -, hraised⟩ := judged_fields x now
  rw [hraised, evaluated_of_unknown hk]

theorem judged_of_le (hk : x.known = true) (ht : x.temp ≤ x.limit) :
    (x.judged now).state = .normal ∧ (x.judged now).warmSince = none := by
  obtain ⟨hstate, hwarm, -, -⟩ := judged_fields x now
  rw [hstate, hwarm, evaluated_of_le hk ht]
  exact ⟨rfl, rfl⟩

theorem judged_of_excursion (hk : x.known = true) (ht : x.limit < x.temp) (hx : x.state = .excursion) :
    (x.judged now).state = .excursion ∧ (x.judged now).warmSince = x.warmSince := by
  obtain ⟨hstate, hwarm, -, -⟩ := judged_fields x now
  rw [hstate, hwarm, evaluated_of_excursion hk ht hx]
  exact ⟨hx, rfl⟩

theorem judged_of_hot (hk : x.known = true) (ht : x.limit < x.temp) (hx : x.state ≠ .excursion) :
    (x.judged now).state = (if x.warmSince.getD now + x.grace ≤ now ∧ x.maskUntil ≤ now then .excursion else .warm)
    ∧ (x.judged now).warmSince = some (x.warmSince.getD now) := by
  obtain ⟨hstate, hwarm, -, -⟩ := judged_fields x now
  rw [hstate, hwarm, evaluated_of_hot hk ht hx]
  exact ⟨rfl, rfl⟩

/-- A known temperature ends the STALE period. -/
theorem judged_stale_of_known (hk : x.known = true) : (x.judged now).staleSince = none ∧ (x.judged now).staleRaised = false := by
  obtain ⟨-, -, hstale, hraised⟩ := judged_fields x now
  rw [hstale, hraised, late_of_known hk]
  unfold evaluated
  simp only [hk, Bool.not_true, Bool.false_eq_true, if_false]
  repeat' split
  all_goals exact ⟨rfl, rfl⟩

/-- A room is WARM only since its temperature was first above the limit. -/
theorem judged_warmSince_of_warm (hy : (x.judged now).state = .warm) :
    (x.judged now).warmSince = some (x.warmSince.getD now) := by
  cases hk : x.known with
  | false =>
    rw [(judged_of_unknown hk).1] at hy
    cases hy
  | true =>
    rcases Int.lt_or_le x.limit x.temp with ht | ht
    · by_cases hx : x.state = .excursion
      · rw [(judged_of_excursion hk ht hx).1] at hy
        cases hy
      · exact (judged_of_hot hk ht hx).2
    · rw [(judged_of_le hk ht).1] at hy
      cases hy

/-- R112: the deadlines of a record are those of the state and times that it ends with. -/
theorem judged_eq_setDeadlines (x : RoomThermal) (now : Time) : ∃ z, x.judged now = setDeadlines now z := ⟨_, rfl⟩

theorem graceEnd_judged (x : RoomThermal) (now : Time) :
    (x.judged now).graceEnd =
      if (x.judged now).state = .warm ∧ now < x.warmSince.getD now + x.grace then some (x.warmSince.getD now + x.grace) else none := by
  have hwarm := judged_warmSince_of_warm (x := x) (now := now)
  obtain ⟨-, hgrace, -⟩ := judged_kept x now
  obtain ⟨z, hz⟩ := judged_eq_setDeadlines x now
  rw [hz] at hwarm hgrace ⊢
  simp only [setDeadlines] at hwarm hgrace ⊢
  rw [← hgrace]
  split
  next hstate hsince =>
    cases hsince.symm.trans (hwarm hstate)
    simp [hstate]
  next hno =>
    have : z.state ≠ .warm := fun hstate => hno _ hstate (hwarm hstate)
    simp [this]

theorem maskEnd_judged (x : RoomThermal) (now : Time) :
    (x.judged now).maskEnd = if (x.judged now).state = .warm ∧ now < x.maskUntil then some x.maskUntil else none := by
  obtain ⟨-, -, -, -, -, hmask, -⟩ := judged_kept x now
  obtain ⟨z, hz⟩ := judged_eq_setDeadlines x now
  rw [hz] at hmask ⊢
  rw [← hmask]
  rfl

theorem staleDue_setDeadlines (z : RoomThermal) (now : Time) :
    (setDeadlines now z).staleDue =
      if z.state = .stale ∧ z.staleRaised = false then z.staleSince.map (· + 120) else none := by
  simp only [setDeadlines]
  split
  next hstate hsince hraised => simp [hstate, hsince, hraised, Config.staleTime]
  next hno =>
    by_cases hdue : z.state = .stale ∧ z.staleRaised = false
    · have hnone : z.staleSince = none :=
        Option.eq_none_iff_forall_ne_some.2 fun since hsince => hno since hdue.1 hsince hdue.2
      rw [if_pos hdue, hnone]
      rfl
    · rw [if_neg hdue]

theorem staleDue_judged (x : RoomThermal) (now : Time) :
    (x.judged now).staleDue =
      if (x.judged now).state = .stale ∧ (x.judged now).staleRaised = false then (x.judged now).staleSince.map (· + 120) else none :=
  staleDue_setDeadlines _ now

end

/-! ## The evaluation of a watched room -/

@[simp] theorem alt_noteThermalChange (r : Fin 8) (before : ThermalState) (s : State) : (noteThermalChange r before s).alt = s.alt := by
  unfold noteThermalChange
  split <;> rfl

@[simp] theorem thermal_noteThermalChange (r q : Fin 8) (before : ThermalState) (s : State) :
    (noteThermalChange r before s).thermal q = s.thermal q := by
  unfold noteThermalChange
  split <;> rfl

@[simp] theorem alarmCause_noteThermalChange (r : Fin 8) (before : ThermalState) (s : State) :
    (noteThermalChange r before s).lkp.pendingCauses.alarm = s.lkp.pendingCauses.alarm := by
  unfold noteThermalChange
  split <;> rfl

/-- R111, R112: the alarm claims of the evaluation of a watched room. -/
def evaluationClaims (r : Fin 8) (s : State) : State :=
  if (s.thermal r).late s.now then raiseAlarm .roomStale (.room r) none s
  else evaluationAlarms r (s.thermal r) (evaluated s.now (s.thermal r)) s

theorem evaluateRoom_eq_of_watched {r : Fin 8} {s : State} (h : s.watched r = true) : evaluateRoom r s =
    noteThermalChange r (s.thermal r).state
      ((evaluationClaims r s).updThermal r fun _ => (s.thermal r).judged s.now) := evaluateRoom_watched r s h

theorem tsu_evaluationClaims (r : Fin 8) (s : State) : (evaluationClaims r s).tsu = s.tsu := by
  unfold evaluationClaims evaluationAlarms
  repeat' split
  all_goals rfl

/-- No alarm claim touches the ROOM cause. -/
theorem roomCause_evaluationClaims (r : Fin 8) (s : State) :
    (evaluationClaims r s).lkp.roomSet = s.lkp.roomSet
    ∧ (evaluationClaims r s).lkp.pendingCauses.room = s.lkp.pendingCauses.room := by
  unfold evaluationClaims evaluationAlarms
  repeat' split
  all_goals exact ⟨rfl, rfl⟩

section
variable {r : Fin 8} {s : State}

theorem thermal_evaluateRoom_of_watched (h : s.watched r = true) (q : Fin 8) :
    (evaluateRoom r s).thermal q = if q = r then (s.thermal r).judged s.now else s.thermal q := by
  rw [evaluateRoom_eq_of_watched h, thermal_noteThermalChange, thermal_updThermal]
  unfold State.thermal
  rw [tsu_evaluationClaims]

theorem alt_evaluateRoom_of_watched (h : s.watched r = true) : (evaluateRoom r s).alt = (evaluationClaims r s).alt := by
  rw [evaluateRoom_eq_of_watched h, alt_noteThermalChange]
  rfl

theorem alarmCause_evaluateRoom_of_watched (h : s.watched r = true) :
    (evaluateRoom r s).lkp.pendingCauses.alarm = (evaluationClaims r s).lkp.pendingCauses.alarm := by
  rw [evaluateRoom_eq_of_watched h, alarmCause_noteThermalChange]
  rfl

theorem evaluationClaims_of_late (hl : (s.thermal r).late s.now = true) :
    evaluationClaims r s = raiseAlarm .roomStale (.room r) none s := if_pos hl

theorem evaluationClaims_of_unknown (hk : (s.thermal r).known = false) (hl : (s.thermal r).late s.now = false) :
    evaluationClaims r s = s := by
  simp [evaluationClaims, evaluationAlarms, hl, evaluated_of_unknown hk]

theorem evaluationClaims_of_le (hk : (s.thermal r).known = true) (ht : (s.thermal r).temp ≤ (s.thermal r).limit) :
    evaluationClaims r s = clearAlarm .roomStale (.room r) (clearAlarm .roomWarm (.room r) s) := by
  simp [evaluationClaims, evaluationAlarms, late_of_known hk, evaluated_of_le hk ht]

theorem evaluationClaims_of_excursion (hk : (s.thermal r).known = true) (ht : (s.thermal r).limit < (s.thermal r).temp)
    (hx : (s.thermal r).state = .excursion) : evaluationClaims r s = clearAlarm .roomStale (.room r) s := by
  simp [evaluationClaims, evaluationAlarms, late_of_known hk, evaluated_of_excursion hk ht hx, hx]

/-- The temperature is above the limit, and the room is not yet in EXCURSION: it enters it once grace and mask are over. -/
theorem evaluationClaims_of_hot (hk : (s.thermal r).known = true) (ht : (s.thermal r).limit < (s.thermal r).temp)
    (hx : (s.thermal r).state ≠ .excursion) : evaluationClaims r s =
      if (s.thermal r).warmSince.getD s.now + (s.thermal r).grace ≤ s.now ∧ (s.thermal r).maskUntil ≤ s.now then
        raiseAlarm .roomWarm (.room r) (some (.temp (s.thermal r).temp)) (clearAlarm .roomStale (.room r) s)
      else clearAlarm .roomStale (.room r) s := by
  by_cases hw : (s.thermal r).warmSince.getD s.now + (s.thermal r).grace ≤ s.now ∧ (s.thermal r).maskUntil ≤ s.now
  · simp [evaluationClaims, evaluationAlarms, late_of_known hk, evaluated_of_hot hk ht hx, hx, hw]
  · simp [evaluationClaims, evaluationAlarms, late_of_known hk, evaluated_of_hot hk ht hx, hw]

end

/-! ## The evaluation of any room -/

/-- R111: the ROOM cause is set exactly at a change of the thermal state. -/
theorem roomCause_evaluateRoom (r : Fin 8) (s : State) :
    (((evaluateRoom r s).thermal r).state = (s.thermal r).state →
      (evaluateRoom r s).lkp.roomSet = s.lkp.roomSet
      ∧ (evaluateRoom r s).lkp.pendingCauses.room = s.lkp.pendingCauses.room)
    ∧ (((evaluateRoom r s).thermal r).state ≠ (s.thermal r).state →
      (evaluateRoom r s).lkp.roomSet = insertFin r s.lkp.roomSet ∧ (evaluateRoom r s).lkp.pendingCauses.room = true) := by
  cases hw : s.watched r with
  | true =>
    obtain ⟨hset, hroom⟩ := roomCause_evaluationClaims r s
    have hstate : (((evaluationClaims r s).updThermal r fun _ => (s.thermal r).judged s.now).thermal r).state
        = ((evaluateRoom r s).thermal r).state := by
      rw [thermal_updThermal, if_pos rfl, thermal_evaluateRoom_of_watched hw, if_pos rfl]
    constructor
    · intro hsame
      rw [evaluateRoom_eq_of_watched hw, noteThermalChange, if_pos (hsame.symm.trans hstate.symm)]
      exact ⟨hset, hroom⟩
    · intro hne
      rw [evaluateRoom_eq_of_watched hw, noteThermalChange, if_neg fun he => hne (hstate.symm.trans he.symm)]
      exact ⟨congrArg (insertFin r) hset, rfl⟩
  | false =>
    obtain ⟨-, hthermal, -, -, hlkp⟩ := evaluateRoom_unwatched r s hw
    rw [hthermal, if_pos rfl, hlkp]
    refine ⟨fun (hsame : ThermalState.unwatched = _) => ?_, fun (hne : ThermalState.unwatched ≠ _) => ?_⟩
    · rw [if_neg (not_not.2 hsame.symm)]
      exact ⟨rfl, rfl⟩
    · rw [if_pos (Ne.symm hne)]
      exact ⟨rfl, rfl⟩

/-- An evaluation leaves a room's settings, temperature and mask, and every other room. -/
theorem evaluateRoom_kept (r : Fin 8) (s : State) :
    ((evaluateRoom r s).thermal r).limit = (s.thermal r).limit ∧ ((evaluateRoom r s).thermal r).grace = (s.thermal r).grace
    ∧ ((evaluateRoom r s).thermal r).mask = (s.thermal r).mask ∧ ((evaluateRoom r s).thermal r).temp = (s.thermal r).temp
    ∧ ((evaluateRoom r s).thermal r).known = (s.thermal r).known
    ∧ ((evaluateRoom r s).thermal r).maskUntil = (s.thermal r).maskUntil
    ∧ ((evaluateRoom r s).thermal r).coilExcluded = (s.thermal r).coilExcluded
    ∧ ∀ q, q ≠ r → (evaluateRoom r s).thermal q = s.thermal q := by
  cases hw : s.watched r with
  | true =>
    obtain ⟨hlimit, hgrace, hmask, htemp, hknown, huntil, hcoil⟩ := judged_kept (s.thermal r) s.now
    simp only [thermal_evaluateRoom_of_watched hw, if_true]
    exact ⟨hlimit, hgrace, hmask, htemp, hknown, huntil, hcoil, fun q hq => if_neg hq⟩
  | false =>
    obtain ⟨-, hthermal, -⟩ := evaluateRoom_unwatched r s hw
    simp only [hthermal, if_true]
    exact ⟨rfl, rfl, rfl, rfl, rfl, rfl, rfl, fun q hq => if_neg hq⟩

end Sys2Proof.Machine
end

section
/-! SUPPORT. The thermal deadlines that are due (R112), the amount of a charge (R116), and what a charge leaves in the record. -/

namespace Sys2Proof.Machine

/-! ## Deadlines -/

section
variable {s : State} {r : Fin 8} {f : RoomThermal → Option Time}

theorem deadlineDue_of_due {d : Time} (hw : s.watched r = true) (hf : f (s.thermal r) = some d) (hd : d ≤ s.moc.clock) :
    s.deadlineDue r f = true := by
  have hd : d ≤ s.now := hd
  simp [State.deadlineDue, hw, hf, hd]

theorem deadlineDue_of_not_due (h : ∀ d, f (s.thermal r) = some d → s.moc.clock < d) : s.deadlineDue r f = false := by
  unfold State.deadlineDue
  cases hf : f (s.thermal r) with
  | none => simp
  | some d =>
    have hd : ¬d ≤ s.now := Nat.not_le.2 (h d hf)
    simp [hd]

end

theorem exec_graceEnd (r : Fin 8) (s : State) :
    exec (.graceEnd r) s = .next (if s.deadlineDue r RoomThermal.graceEnd then settle (evaluateRoom r s) else s) := rfl
theorem exec_maskEnd (r : Fin 8) (s : State) :
    exec (.maskEnd r) s = .next (if s.deadlineDue r RoomThermal.maskEnd then settle (evaluateRoom r s) else s) := rfl
theorem exec_staleAlarmExpiry (r : Fin 8) (s : State) :
    exec (.staleAlarmExpiry r) s = .next (if s.deadlineDue r RoomThermal.staleDue then settle (evaluateRoom r s) else s) := rfl
theorem exec_accrualIntervalExpiry (s : State) :
    exec .accrualIntervalExpiry s = .next (if s.accrualOver then settle (accrualExpiry s) else s) := rfl

theorem accrualOver_of_due {s : State} {d : Time} (hdue : s.tsu.accrualDue = some d) (hd : d ≤ s.moc.clock) : s.accrualOver = true := by
  have hd : d ≤ s.now := hd
  simp [State.accrualOver, hdue, hd]

theorem accrualOver_of_not_due {s : State} (h : ∀ d, s.tsu.accrualDue = some d → s.moc.clock < d) : s.accrualOver = false := by
  unfold State.accrualOver
  cases hdue : s.tsu.accrualDue with
  | none => rfl
  | some d =>
    have hd : ¬d ≤ s.now := Nat.not_le.2 (h d hdue)
    simp [hd]

/-! ## The amount of a charge -/

/-- The largest member of a list of numbers is a member, and no member exceeds it. -/
theorem foldl_max_spec (xs : List Nat) (hxs : xs ≠ []) : xs.foldl max 0 ∈ xs ∧ ∀ n ∈ xs, n ≤ xs.foldl max 0 := by
  cases xs with
  | nil => exact absurd rfl hxs
  | cons x xs =>
    refine List.max?_eq_some_iff.1 ?_
    rw [List.max?_cons', List.foldl_cons, Nat.zero_max]

theorem chargeAmount_of_no_room {s : State} {table : Vector (Option Temp) 8} {p : Pallet} (h : s.roomsUsed p = []) :
    s.chargeAmount table p = 0 := by
  simp [State.chargeAmount, h]

/-- R116: the charge is the amount of a room used, and no room used has a larger one. -/
theorem chargeAmount_spec {s : State} {p : Pallet} (table : Vector (Option Temp) 8) (h : s.roomsUsed p ≠ []) :
    (∃ r ∈ s.roomsUsed p, s.chargeAmount table p = roomAmount (s.cls p.cls) (table.get r))
    ∧ ∀ r ∈ s.roomsUsed p, roomAmount (s.cls p.cls) (table.get r) ≤ s.chargeAmount table p := by
  obtain ⟨hmem, hbound⟩ := foldl_max_spec ((s.roomsUsed p).map fun r => roomAmount (s.cls p.cls) (table.get r)) (by simpa using h)
  obtain ⟨r, hr, hamount⟩ := List.mem_map.1 hmem
  exact ⟨⟨r, hr, hamount.symm⟩, fun q hq => hbound _ (List.mem_map_of_mem hq)⟩

theorem roomsUsed_of_carried {s : State} {p : Pallet} {o : OrderId} (h : p.place = .carried o) : s.roomsUsed p =
    match s.order? o with
    | some x => (s.roomOfPlace x.origin).toList ++ (s.roomOfPlace x.dest).toList
    | none => [] := by
  unfold State.roomsUsed
  rw [h]
  dsimp only
  cases s.order? o with
  | none => rfl
  | some x => cases hfrom : s.roomOfPlace x.origin <;> cases hto : s.roomOfPlace x.dest <;> simp [hfrom, hto]

theorem roomsUsed_of_not_carried {s : State} {p : Pallet} (h : ∀ o, p.place ≠ .carried o) :
    s.roomsUsed p = (s.roomOfPlace p.place).toList := by
  unfold State.roomsUsed
  cases hp : p.place with
  | carried o => exact absurd hp (h o)
  | _ => rfl

/-! ## What a charge leaves in the record -/

/-- A record without its live order: what the end of an order leaves of it. -/
def Pallet.unbound (p : Pallet) : Pallet := { p with liveOrder := none }

/-- CTB stays canonical, and its records are those before but for their live orders. -/
structure RecordsKept (s t : State) : Prop where
  canonical : swf {} s.ctb.entries = true → swf {} t.ctb.entries = true
  record : swf {} s.ctb.entries = true → ∀ h, (t.pallet? h).map Pallet.unbound = (s.pallet? h).map Pallet.unbound

namespace RecordsKept

theorem refl (s : State) : RecordsKept s s := ⟨id, fun _ _ => rfl⟩

theorem trans {s t u : State} (hst : RecordsKept s t) (htu : RecordsKept t u) : RecordsKept s u where
  canonical hs := htu.canonical (hst.canonical hs)
  record hs h := (htu.record (hst.canonical hs) h).trans (hst.record hs h)

theorem of_ctb {s t : State} (h : t.ctb = s.ctb) : RecordsKept s t where
  canonical hs := by rw [h]; exact hs
  record _ k := by rw [pallet_eq_of_entries (congrArg Ctb.entries h)]

theorem of_stock {s t : State} (h : t.stock = s.stock) : RecordsKept s t := of_ctb (ctb_eq_of_stock h)

end RecordsKept

theorem recordsKept_unbindClaim (h : Handle) (o : OrderId) (s : State) : RecordsKept s (unbindClaim h o s) := by
  unfold unbindClaim boundClaim
  repeat' split
  · refine ⟨fun hs => entries_updPallet hs .., fun hs k => ?_⟩
    rw [pallet_updPallet hs]
    split
    · rw [Option.map_map]
      rfl
    · rfl
  all_goals exact .refl s

theorem recordsKept_withdrawOrder (out : Outcome) (o : OrderId) (s : State) : RecordsKept s (withdrawOrder out o s) := by
  unfold withdrawOrder
  cases s.order? o with
  | none => exact .refl s
  | some x =>
    dsimp only
    split
    · refine RecordsKept.trans ?_ (.of_stock (stock_dispatchPass ..))
      refine RecordsKept.trans ?_ (.of_stock (stock_finishOrder ..))
      refine RecordsKept.trans (.trans (.of_stock ?_) (.of_ctb (ctb_releaseClaim ..))) (recordsKept_unbindClaim ..)
      cases x.terminal <;> simp
    · exact .refl s

theorem recordsKept_holdNotice (h : Handle) (s : State) : RecordsKept s (holdNotice h s) := by
  unfold holdNotice
  repeat' split
  case h_1.isTrue => exact recordsKept_withdrawOrder ..
  all_goals exact .refl s

/-- R36: the budget rule leaves a record's exposure and class, and sets the hold where the budget is reached. -/
theorem pallet_budgetRule {s : State} {h : Handle} {p : Pallet} (hs : swf {} s.ctb.entries = true) (hp : s.pallet? h = some p) :
    ∃ q, (budgetRule h s).pallet? h = some q ∧ q.exposure = p.exposure
      ∧ ((s.cls p.cls).budget ≤ p.exposure → q.holds.exposure = true) := by
  unfold budgetRule
  rw [hp]
  dsimp only
  split
  next hbudget =>
    obtain ⟨-, hrecord⟩ := recordsKept_holdNotice h (raiseAlarm .palletExposed (.pallet h) (some (.exposure p.exposure))
      (s.updPallet h fun x => { x with holds := { x.holds with exposure := true } }))
    have hupd := pallet_updPallet_same hs h fun x => { x with holds := { x.holds with exposure := true } }
    have hq := hrecord (entries_updPallet hs ..) h
    rw [pallet_eq_of_stock (stock_raiseAlarm ..), hupd, hp] at hq
    obtain ⟨q, hq, hunbound⟩ := Option.map_eq_some_iff.1 hq
    have hexposure := congrArg Pallet.exposure hunbound
    have hhold := congrArg (fun x => x.holds.exposure) hunbound
    exact ⟨q, hq, hexposure, fun _ => hhold⟩
  next hbudget =>
    refine ⟨p, hp, rfl, fun hle => ?_⟩
    by_contra hno
    exact hbudget ⟨hle, by simp [hno]⟩

/-- R42: what a charge leaves in the record of the pallet charged. -/
theorem pallet_chargePallet {s : State} {h : Handle} {p : Pallet} (hs : swf {} s.ctb.entries = true) (hp : s.pallet? h = some p)
    (n : Nat) : ∃ q, (chargePallet h n s).pallet? h = some q
      ∧ q.exposure = (if n = 0 then p.exposure else min 65535 (p.exposure + n))
      ∧ (0 < n → (s.cls p.cls).budget ≤ q.exposure → q.holds.exposure = true) := by
  unfold chargePallet
  split
  next hn => exact ⟨p, hp, rfl, fun hpos => absurd hn (Nat.pos_iff_ne_zero.1 hpos)⟩
  next hn =>
    have hcharged := pallet_updPallet_same hs h fun p => { p with exposure := min Config.exposureMax (p.exposure + n) }
    rw [hp] at hcharged
    obtain ⟨q, hq, hexposure, hhold⟩ := pallet_budgetRule (entries_updPallet hs ..) hcharged
    exact ⟨q, hq, hexposure, fun _ hbudget => hhold (hexposure ▸ hbudget)⟩

end Sys2Proof.Machine
end

section
/-! SUPPORT. The statement about the evaluation of the rooms, its deadlines and the charge of an interval, clause by clause. -/

namespace Sys2Proof.Machine

section
variable {s : State} {r : Fin 8}

theorem alt_evaluateRoom_of_le (hw : s.watched r = true) (hk : (s.thermal r).known = true)
    (ht : (s.thermal r).temp ≤ (s.thermal r).limit) :
    (evaluateRoom r s).alt = (s.alt.clear .roomWarm (.room r)).clear .roomStale (.room r) := by
  rw [alt_evaluateRoom_of_watched hw, evaluationClaims_of_le hk ht]
  rfl

/-- Above the limit, a room that stays as it is clears the stale alarm alone. -/
theorem alt_evaluateRoom_of_not_raised (hw : s.watched r = true) (hk : (s.thermal r).known = true)
    (ht : (s.thermal r).limit < (s.thermal r).temp)
    (hx : (s.thermal r).state = .excursion
      ∨ ¬((s.thermal r).warmSince.getD s.now + (s.thermal r).grace ≤ s.now ∧ (s.thermal r).maskUntil ≤ s.now)) :
    (evaluateRoom r s).alt = s.alt.clear .roomStale (.room r) := by
  rw [alt_evaluateRoom_of_watched hw]
  by_cases he : (s.thermal r).state = .excursion
  · rw [evaluationClaims_of_excursion hk ht he]
    rfl
  · rw [evaluationClaims_of_hot hk ht he, if_neg (hx.resolve_left he)]
    rfl

/-- R111: at the entry to EXCURSION the warm alarm is raised, after the clear of the stale alarm. -/
theorem evaluateRoom_of_raised (hw : s.watched r = true) (hk : (s.thermal r).known = true)
    (ht : (s.thermal r).limit < (s.thermal r).temp) (hx : (s.thermal r).state ≠ .excursion)
    (hwait : (s.thermal r).warmSince.getD s.now + (s.thermal r).grace ≤ s.now ∧ (s.thermal r).maskUntil ≤ s.now) :
    (evaluateRoom r s).lkp.pendingCauses.alarm = true ∧ (evaluateRoom r s).alt =
      (s.alt.clear .roomStale (.room r)).raise s.now .roomWarm (.room r) (some (.temp (s.thermal r).temp)) := by
  rw [alt_evaluateRoom_of_watched hw, alarmCause_evaluateRoom_of_watched hw, evaluationClaims_of_hot hk ht hx, if_pos hwait]
  exact ⟨rfl, rfl⟩

/-- R112: the stale alarm is raised where it is due. -/
theorem evaluateRoom_of_late (hw : s.watched r = true) (hl : (s.thermal r).late s.now = true) :
    (evaluateRoom r s).lkp.pendingCauses.alarm = true
    ∧ (evaluateRoom r s).alt = s.alt.raise s.now .roomStale (.room r) none := by
  rw [alt_evaluateRoom_of_watched hw, alarmCause_evaluateRoom_of_watched hw, evaluationClaims_of_late hl]
  exact ⟨rfl, rfl⟩

theorem alt_evaluateRoom_of_unknown (hw : s.watched r = true) (hk : (s.thermal r).known = false)
    (hl : (s.thermal r).late s.now = false) : (evaluateRoom r s).alt = s.alt := by
  rw [alt_evaluateRoom_of_watched hw, evaluationClaims_of_unknown hk hl]

end

theorem watched_iff (s : State) (r : Fin 8) : s.watched r = true ↔ (s.mode = .run ∨ s.mode = .holdover) ∧ s.kind r ≠ .unused := by
  simp [State.watched]

theorem tableEntry_spec (x : RoomThermal) :
    (x.state = .normal ∨ x.state = .warm ∨ x.state = .excursion → tableEntry x = some x.temp)
    ∧ (x.state = .stale ∨ x.state = .unwatched → tableEntry x = none) := by
  unfold tableEntry
  cases x.state <;> simp

theorem accrualExpiry_eq (s : State) : accrualExpiry s =
    let u := s.liveHandles.foldl (fun (v : State) h =>
      match v.pallet? h with
      | some p => chargePallet h (v.chargeAmount (s.tsu.rooms.map tableEntry) p) v
      | none => v) s
    u.withTsu { u.tsu with lastAccrual := s.moc.clock, accrualDue := some (s.moc.clock + 60) } := rfl

/-- Settles O50: the evaluation is its record, its alarm claims and the ROOM cause, and a charge takes the largest room amount. -/
theorem thermalDeadlinesEvaluate : Obligations.ThermalDeadlinesEvaluate := by
  refine ⟨fun s r d hw hd => ⟨fun hf => ?_, fun hf => ?_, fun hf => ?_⟩, fun s r => ⟨fun h => ?_, fun h => ?_, fun h => ?_⟩,
    fun s r hw => ?_, fun s r => ?_, fun s r hw => ?_, watched_iff, fun s d hdue hd => ?_, fun s h => ?_, tableEntry_spec,
    fun s table p => ?_, fun s h p n hs hp => pallet_chargePallet hs.2.1 hp n⟩
  case refine_1 => rw [exec_graceEnd, deadlineDue_of_due hw hf hd, if_pos rfl]
  case refine_2 => rw [exec_maskEnd, deadlineDue_of_due hw hf hd, if_pos rfl]
  case refine_3 => rw [exec_staleAlarmExpiry, deadlineDue_of_due hw hf hd, if_pos rfl]
  case refine_4 => rw [exec_graceEnd, deadlineDue_of_not_due h, if_neg Bool.false_ne_true]
  case refine_5 => rw [exec_maskEnd, deadlineDue_of_not_due h, if_neg Bool.false_ne_true]
  case refine_6 => rw [exec_staleAlarmExpiry, deadlineDue_of_not_due h, if_neg Bool.false_ne_true]
  case refine_7 =>
    intro x y u since waited
    have hy : y = x.judged s.now := (thermal_evaluateRoom_of_watched hw r).trans (if_pos rfl)
    refine ⟨fun hk => hy ▸ judged_of_unknown hk, fun hk => hy ▸ judged_stale_of_known hk, fun hk ht => hy ▸ judged_of_le hk ht,
      fun hk ht hx => hy ▸ judged_of_excursion hk ht hx, fun hk ht hx => ?_, fun hk ht => alt_evaluateRoom_of_le hw hk ht,
      fun hk ht hx => alt_evaluateRoom_of_not_raised hw hk ht hx,
      fun hk ht hx hwait => evaluateRoom_of_raised hw hk ht hx hwait, fun hk => ?_,
      hy ▸ graceEnd_judged x s.now, hy ▸ maskEnd_judged x s.now, hy ▸ staleDue_judged x s.now⟩
    · obtain ⟨hstate, hsince⟩ := judged_of_hot (now := s.now) hk ht hx
      rw [← hy] at hstate hsince
      exact ⟨hsince, fun hwait => hstate.trans (if_pos hwait), fun hwait => hstate.trans (if_neg hwait)⟩
    · have hraised := judged_staleRaised_of_unknown (now := s.now) hk
      rw [← hy] at hraised
      refine ⟨fun hlate => ?_, fun hlate => ?_⟩
      · have hl := (late_iff hk).2 hlate
        exact ⟨hraised.trans (if_pos hl), evaluateRoom_of_late hw hl⟩
      · have hl : x.late s.now = false := Bool.eq_false_iff.2 fun hl => hlate ((late_iff hk).1 hl)
        exact ⟨hraised.trans (by rw [hl]; rfl), alt_evaluateRoom_of_unknown hw hk hl⟩
  case refine_8 =>
    obtain ⟨hsame, hchanged⟩ := roomCause_evaluateRoom r s
    exact ⟨hsame, hchanged, evaluateRoom_kept r s⟩
  case refine_9 =>
    obtain ⟨-, hthermal, -, halt, -⟩ := evaluateRoom_unwatched r s hw
    dsimp only
    rw [hthermal, if_pos rfl]
    exact ⟨rfl, rfl, rfl, rfl, rfl, rfl, rfl, halt⟩
  case refine_10 =>
    rw [exec_accrualIntervalExpiry, accrualOver_of_due hdue hd, if_pos rfl]
    exact congrArg (fun u => Host.Outcome.next (settle u)) (accrualExpiry_eq s)
  case refine_11 => rw [exec_accrualIntervalExpiry, accrualOver_of_not_due h, if_neg Bool.false_ne_true]
  case refine_12 =>
    intro roomOf amount rooms
    have hroomOf (q : Place) : (s.roomOfPlace q).toList = roomOf q := by cases q <;> rfl
    have hamount (r : Fin 8) : roomAmount (s.cls p.cls) (table.get r) = amount r := by
      simp only [amount]
      cases table.get r <;> rfl
    have hrooms : s.roomsUsed p = rooms := by
      simp only [rooms]
      split
      next o hplace =>
        rw [roomsUsed_of_carried hplace]
        cases s.order? o with
        | none => rfl
        | some x => exact congrArg₂ (· ++ ·) (hroomOf x.origin) (hroomOf x.dest)
      next hplace => rw [roomsUsed_of_not_carried hplace, hroomOf]
    rw [← hrooms]
    simp only [← hamount]
    exact ⟨chargeAmount_of_no_room, chargeAmount_spec table⟩

end Sys2Proof.Machine
end

section
/-! SUPPORT. The requests to CTB: what each owner answers to an argument list of its form (R21 to R41). -/

namespace Sys2Proof.Machine

/-! ## A single handle (R24) -/

/-- A request whose only argument is a handle acts on the record that it names. -/
theorem oneHandle_of_live {s : State} {h : Handle} {p : Pallet} (hp : s.pallet? h = some p) (k : Handle → Pallet → State → Reply) :
    oneHandle k (be 2 h.code) s = k h p s := by
  simp only [oneHandle, be_two, num_be h.code_lt, readHandle_code, hp]

theorem oneHandle_of_stale {s : State} {h : Handle} (hp : s.pallet? h = none) (k : Handle → Pallet → State → Reply) :
    oneHandle k (be 2 h.code) s = .error .staleHandle := by
  simp only [oneHandle, be_two, num_be h.code_lt, readHandle_code, hp]

/-! ## CLASS_SET (R21, R22) -/

/-- A preferred room above 7 is BAD_ARG. -/
theorem classSetReply_of_room_ge {fields : List Byte} {hi lo : Byte} (hroom : 8 ≤ beNat [hi, lo]) (s : State) :
    classSetReply (fields ++ [hi, lo]) s = .error .badArg := by
  unfold classSetReply
  split
  next c1 c0 l1 l0 b1 b0 x1 x0 p1 p0 heq =>
    have hlast : [hi, lo] = [p1, p0] :=
      (List.append_inj_right' (t₂ := [p1, p0]) (s₂ := [c1, c0, l1, l0, b1, b0, x1, x0]) heq rfl)
    cases hlast
    rw [readFin_of_le (n := num hi lo) hroom]
    cases readFin (num c1 c0) 16 <;> rfl
  next => rfl

theorem classSetReply_be {x : ClassRec} (c : Fin 16) (hlow : -32768 ≤ x.limit) (hhigh : x.limit ≤ 32767) (hbudget : x.budget < 65536)
    (hexcess : x.excess < 65536) (s : State) :
    classSetReply (be 2 c.1 ++ temp2 x.limit ++ be 2 x.budget ++ be 2 x.excess ++ be 2 x.preferred.1) s =
      if s.classOk x then storeClass c x s else .error .badArg := by
  have hc : c.1 < 65536 := by omega
  have hroom : x.preferred.1 < 65536 := by omega
  simp only [classSetReply, temp2, be_two, List.cons_append, List.nil_append, num_be hc, num_be hbudget, num_be hexcess,
    num_be hroom, readFin_val, temp_be hlow hhigh]

theorem classOk_iff (s : State) (x : ClassRec) : s.classOk x = true ↔
    (-500 ≤ x.limit ∧ x.limit ≤ 500 ∧ x.excess ≤ 500)
      ∧ (x.budget = 0 ∨ s.kind x.preferred = .freezer ∨ s.kind x.preferred = .blast) := by
  have hcold (k : RoomKind) : k.cold = true ↔ k = .freezer ∨ k = .blast := by cases k <;> simp [RoomKind.cold]
  simp [State.classOk, hcold, and_assoc]

/-! ## ADMIT (R29, R30) -/

/-- A class above 15 or a door above 23 is BAD_ARG. -/
theorem admitReply_of_range {tag : List Byte} {c1 c0 d1 d0 : Byte} (hrange : 16 ≤ beNat [c1, c0] ∨ 24 ≤ beNat [d1, d0]) (s : State) :
    admitReply (tag ++ [c1, c0, d1, d0]) s = .error .badArg := by
  unfold admitReply
  split
  next t5 t4 t3 t2 t1 t0 a1 a0 b1 b0 heq =>
    have hlast : [c1, c0, d1, d0] = [a1, a0, b1, b0] :=
      List.append_inj_right' (t₂ := [a1, a0, b1, b0]) (s₂ := [t5, t4, t3, t2, t1, t0]) heq rfl
    cases hlast
    rcases hrange with hc | hd
    · rw [readFin_of_le (n := num c1 c0) hc]
    · rw [readFin_of_le (n := num d1 d0) hd]
      cases readFin (num c1 c0) 16 <;> rfl
  next => rfl

theorem admitReply_be (tag : Tag) (c : Fin 16) (d : Fin 24) (s : State) :
    admitReply (be 6 tag.toNat ++ be 2 c.1 ++ be 2 d.1) s = tryAdmit tag c d s := by
  have hc : c.1 < 65536 := by omega
  have hd : d.1 < 65536 := by omega
  simp only [admitReply, be_six, be_two, List.cons_append, List.nil_append, num_be hc, num_be hd, readFin_val, readTag, tag_be]

/-! ## FIND_TAG (R28) -/

section
variable {s : State} {tag : Tag}

theorem findTagReply_exact {h : Handle} (hf : s.findTag tag = some h) :
    findTagReply (be 6 tag.toNat ++ [0#8]) s = done (handle2 h) s := by
  simp only [findTagReply, be_six, List.cons_append, List.nil_append, readTag, tag_be, hf, if_true]

theorem findTagReply_exact_of_none (hf : s.findTag tag = none) :
    findTagReply (be 6 tag.toNat ++ [0#8]) s = .error .notFound := by
  simp only [findTagReply, be_six, List.cons_append, List.nil_append, readTag, tag_be, hf, if_true]

theorem findTagReply_next {x : Tag} {h : Handle} (hn : s.nextTag tag = some (x, h)) :
    findTagReply (be 6 tag.toNat ++ [1#8]) s = done (tag6 x ++ handle2 h) s := by
  have hmode : ¬(1#8 = 0#8) := by decide
  simp only [findTagReply, be_six, List.cons_append, List.nil_append, readTag, tag_be, hn, if_neg hmode, if_true]

theorem findTagReply_next_of_none (hn : s.nextTag tag = none) :
    findTagReply (be 6 tag.toNat ++ [1#8]) s = .error .notFound := by
  have hmode : ¬(1#8 = 0#8) := by decide
  simp only [findTagReply, be_six, List.cons_append, List.nil_append, readTag, tag_be, hn, if_neg hmode, if_true]

/-- A mode byte that is neither exact nor next is BAD_ARG (R201). -/
theorem findTagReply_of_mode {mode : Byte} (hexact : mode ≠ 0#8) (hnext : mode ≠ 1#8) :
    findTagReply (be 6 tag.toNat ++ [mode]) s = .error .badArg := by
  simp only [findTagReply, be_six, List.cons_append, List.nil_append, if_neg hexact, if_neg hnext]

end

/-! ## CENSUS (R32, R203) -/

/-- The numbers of a list of 16-bit numbers. -/
theorem readNums_flatMap_be (ns : List Nat) (hns : ∀ n ∈ ns, n < 65536) : readNums (ns.flatMap (be 2)) = some ns := by
  induction ns with
  | nil => rfl
  | cons n ns ih =>
    obtain ⟨hn, hns⟩ := List.forall_mem_cons.1 hns
    rw [List.flatMap_cons, be_two, List.cons_append, List.cons_append, List.nil_append, readNums, ih hns, num_be hn]
    rfl

/-- The handles of a list of handle codes. -/
theorem readNums_handles (hs : List Handle) :
    readNums (hs.flatMap fun h => be 2 h.code) = some (hs.map Handle.code) := by
  have hread := readNums_flatMap_be (hs.map Handle.code) fun n hn => by
    obtain ⟨h, -, rfl⟩ := List.mem_map.1 hn
    exact h.code_lt
  rwa [List.flatMap_map] at hread

/-- A list that is empty, longer than 32, or not as long as its count says is BAD_ARG. -/
theorem censusReply_of_bad {n : Byte} {list : List Byte} (h : n = 0#8 ∨ 32 < n.toNat ∨ list.length ≠ 2 * n.toNat) (s : State) :
    censusReply (n :: list) s = .error .badArg := by
  simp only [censusReply]
  cases hread : readNums list with
  | none => rfl
  | some ns =>
    have hlength := readNums_length list ns hread
    refine if_neg fun ⟨hpos, hmax, hcount⟩ => ?_
    rcases h with rfl | hmany | hne
    · exact absurd hcount (Nat.ne_of_lt hpos)
    · omega
    · omega

theorem censusReply_handles {hs : List Handle} (hpos : 1 ≤ hs.length) (hmax : hs.length ≤ 32) (s : State) :
    censusReply ([BitVec.ofNat 8 hs.length] ++ hs.flatMap fun h => be 2 h.code) s = done (listOf s.censusElement hs) s := by
  have hbyte : (BitVec.ofNat 8 hs.length).toNat = hs.length := by
    rw [BitVec.toNat_ofNat]
    omega
  have hcount : 1 ≤ (hs.map Handle.code).length ∧ (hs.map Handle.code).length ≤ 32
      ∧ (BitVec.ofNat 8 hs.length).toNat = (hs.map Handle.code).length := by
    rw [List.length_map]
    exact ⟨hpos, hmax, hbyte⟩
  simp only [censusReply, List.cons_append, List.nil_append, readNums_handles, if_pos hcount, List.map_map]
  rw [List.map_congr_left (f := readHandle ∘ Handle.code) (g := id) fun h _ => readHandle_code h, List.map_id]

/-! ## HOLD_SET and HOLD_CLEAR (R34, R35) -/

section
variable {s : State} {h : Handle} {p : Pallet}

theorem holdSetReply_of_stale (hp : s.pallet? h = none) (hold : Byte) :
    holdSetReply (be 2 h.code ++ [hold]) s = .error .staleHandle := by
  simp only [holdSetReply, be_two, List.cons_append, List.nil_append, num_be h.code_lt, readHandle_code, hp]

theorem holdSetReply_of_live (hp : s.pallet? h = some p) (hold : Byte) :
    holdSetReply (be 2 h.code ++ [hold]) s =
      if hold ≠ 2#8 then .error .badArg
      else if p.holds.quality then .error .already
      else done [{ p.holds with quality := true }.byte] (setQuality h s) := by
  simp only [holdSetReply, be_two, List.cons_append, List.nil_append, num_be h.code_lt, readHandle_code, hp]

theorem holdClearReply_of_stale (hp : s.pallet? h = none) (hold : Byte) :
    holdClearReply (be 2 h.code ++ [hold]) s = .error .staleHandle := by
  simp only [holdClearReply, be_two, List.cons_append, List.nil_append, num_be h.code_lt, readHandle_code, hp]

theorem holdClearReply_of_live (hp : s.pallet? h = some p) (hold : Byte) :
    holdClearReply (be 2 h.code ++ [hold]) s =
      if hold = 2#8 then
        if p.holds.quality then done [] (s.updPallet h fun p => { p with holds := { p.holds with quality := false } })
        else .error .already
      else if hold = 1#8 ∨ hold = 3#8 then .error .locked
      else .error .badArg := by
  simp only [holdClearReply, be_two, List.cons_append, List.nil_append, num_be h.code_lt, readHandle_code, hp]

end

/-! ## RETIRE (R37) and PLACE_CORRECT (R41) -/

theorem retirePallet_of_live {s : State} {h : Handle} {p : Pallet} (hp : s.pallet? h = some p) :
    retirePallet h s = (clearAlarm .placeUncertain (.pallet h) (clearAlarm .palletExposed (.pallet h)
      ((vacateClaim h p.place s).getD s))).setEntry h.index.1 { gen := h.gen + 1, rec? := none } := by
  unfold retirePallet
  rw [hp]

section
variable {s : State} {h : Handle} {p : Pallet} {n : Nat} {new : Place}

theorem correctPlace_same (s : State) (h : Handle) (p : Pallet) : correctPlace h p p.place s = .ok s := if_pos rfl

theorem correctPlace_of_refused {rc : ResultCode} (hne : new ≠ p.place) (ho : occupyClaim h new s = .error rc) :
    correctPlace h p new s = .error rc := by
  simp only [correctPlace, if_neg hne, ho]

theorem correctPlace_of_occupied {v : State} (hne : new ≠ p.place) (ho : occupyClaim h new s = .ok v) :
    correctPlace h p new s = .ok (((vacateClaim h p.place v).getD v).updPallet h fun x => { x with place := new }) := by
  simp only [correctPlace, if_neg hne, ho]

theorem placeCorrectReply_of_stale (n : Nat) (hp : s.pallet? h = none) :
    placeCorrectReply (be 2 h.code ++ be 2 n) s = .error .staleHandle := by
  simp only [placeCorrectReply, be_two, List.cons_append, List.nil_append, num_be h.code_lt, readHandle_code, hp]

/-- R41: a correction that is no SLOT, LANE or FLOOR is BAD_ARG. -/
theorem placeCorrectReply_of_no_place (hn : n < 65536) (hp : s.pallet? h = some p) (hr : readCorrection n = none) :
    placeCorrectReply (be 2 h.code ++ be 2 n) s = .error .badArg := by
  simp only [placeCorrectReply, be_two, List.cons_append, List.nil_append, num_be h.code_lt, num_be hn, readHandle_code, hp, hr]

theorem placeCorrectReply_of_ordered (hn : n < 65536) (hp : s.pallet? h = some p) (hr : readCorrection n = some new)
    (hlive : p.liveOrder.isSome = true) : placeCorrectReply (be 2 h.code ++ be 2 n) s = .error .busy := by
  simp only [placeCorrectReply, be_two, List.cons_append, List.nil_append, num_be h.code_lt, num_be hn, readHandle_code, hp, hr,
    if_pos hlive]

theorem placeCorrectReply_of_invalid (hn : n < 65536) (hp : s.pallet? h = some p) (hr : readCorrection n = some new)
    (hlive : p.liveOrder = none) (hv : s.placeValid new = false) :
    placeCorrectReply (be 2 h.code ++ be 2 n) s = .error .badArg := by
  simp [placeCorrectReply, be_two, num_be h.code_lt, num_be hn, hp, hr, hlive, hv]

/-- R41: past the checks, the reply is that of the change of place. -/
theorem placeCorrectReply_of_refused {rc : ResultCode} (hn : n < 65536) (hp : s.pallet? h = some p)
    (hr : readCorrection n = some new) (hlive : p.liveOrder = none) (hv : s.placeValid new = true)
    (hc : correctPlace h p new s = .error rc) : placeCorrectReply (be 2 h.code ++ be 2 n) s = .error rc := by
  simp [placeCorrectReply, be_two, num_be h.code_lt, num_be hn, hp, hr, hlive, hv, hc]

theorem placeCorrectReply_of_corrected {t : State} (hn : n < 65536) (hp : s.pallet? h = some p)
    (hr : readCorrection n = some new) (hlive : p.liveOrder = none) (hv : s.placeValid new = true)
    (hc : correctPlace h p new s = .ok t) : placeCorrectReply (be 2 h.code ++ be 2 n) s =
      done (place2 new ++ [{ p.holds with placeUncertain := false }.byte]) (confirmPlace h t) := by
  simp [placeCorrectReply, be_two, num_be h.code_lt, num_be hn, hp, hr, hlive, hv, hc]

end

end Sys2Proof.Machine
end

section
/-! SUPPORT. The statements about the requests to CTB, each by what its owner answers (R21 to R41). -/

namespace Sys2Proof.Machine

/-! ## CLASS_SET -/

theorem storeClass_of_empty {c : Fin 16} {x : ClassRec} {s : State} (hb : x.budget = 0) :
    storeClass c x s = if s.classUsed c then .error .occupied else done (num2 0) (setClass c {} s) := if_pos hb

theorem storeClass_of_budget {c : Fin 16} {x : ClassRec} {s : State} (hb : x.budget ≠ 0) :
    storeClass c x s = done (num2 (reevaluateClass c (setClass c x s)).1) (reevaluateClass c (setClass c x s)).2 := if_neg hb

/-- Settles O28: the ranges and the preferred room's kind decide what is stored, and a budget of 0 empties an unused class. -/
theorem classSetStoresTheClass : Obligations.ClassSetStoresTheClass := by
  refine ⟨availableIn_of_group (g := .configure) rfl, ?_, ?_⟩
  · intro f s t fields hi lo h hargs hroom
    exact exec_refused rfl h (hargs ▸ classSetReply_of_room_ge hroom t)
  · intro f s t c x h hlow hhigh hbudget hexcess hargs inRange
    have hreply : ownerReply .classSet f.args t = _ := hargs ▸ classSetReply_be c hlow hhigh hbudget hexcess t
    have hok := classOk_iff t x
    refine ⟨fun hr => exec_refused rfl h ?_, fun hr hb hused => exec_refused rfl h ?_, fun hr hb hused => exec_answered rfl h ?_,
      fun hr hb hfreezer hblast => exec_refused rfl h ?_, fun hr hb hcold => exec_answered rfl h ?_⟩
    · rw [hreply, if_neg fun hx => hr (hok.1 hx).1]
    · rw [hreply, if_pos (hok.2 ⟨hr, .inl hb⟩), storeClass_of_empty hb, if_pos hused]
    · rw [hreply, if_pos (hok.2 ⟨hr, .inl hb⟩), storeClass_of_empty hb, hused]
      rfl
    · rw [hreply, if_neg fun hx => ?_]
      rcases (hok.1 hx).2 with h0 | hf | hbl
      · exact hb h0
      · exact hfreezer hf
      · exact hblast hbl
    · rw [hreply, if_pos (hok.2 ⟨hr, .inr hcold⟩), storeClass_of_budget hb]
      rfl

/-! ## ADMIT -/

section
variable {s : State} {tag : Tag} {c : Fin 16} {d : Fin 24}

theorem tryAdmit_of_no_class (hb : (s.cls c).budget = 0) : tryAdmit tag c d s = .error .badArg := if_pos hb

theorem tryAdmit_of_duplicate (hb : (s.cls c).budget ≠ 0) (hf : s.findTag tag ≠ none) :
    tryAdmit tag c d s = .error .duplicateTag := by
  simp only [tryAdmit, if_neg hb, if_pos (Option.isSome_iff_ne_none.2 hf)]

theorem tryAdmit_of_full (hb : (s.cls c).budget ≠ 0) (hf : s.findTag tag = none) (hi : s.freeEntry = none) :
    tryAdmit tag c d s = .error .tableFull := by
  simp [tryAdmit, hb, hf, hi]

theorem tryAdmit_of_shut {i : Nat} (hb : (s.cls c).budget ≠ 0) (hf : s.findTag tag = none) (hi : s.freeEntry = some i)
    (hd : admissionClaim d s = none) : tryAdmit tag c d s = .error .doorState := by
  simp [tryAdmit, hb, hf, hi, hd]

theorem tryAdmit_of_claimed {i : Nat} {t : State} (hb : (s.cls c).budget ≠ 0) (hf : s.findTag tag = none)
    (hi : s.freeEntry = some i) (hd : admissionClaim d s = some t) :
    tryAdmit tag c d s = done (handle2 (admitPallet i tag c d t).1) (admitPallet i tag c d t).2 := by
  simp [tryAdmit, hb, hf, hi, hd]

end

/-- R96: the count of a session leaves the custody table and the site clock. -/
theorem countPallet_kept (d : Fin 24) (s : State) (i : Nat) : (countPallet d s).entry i = s.entry i ∧ (countPallet d s).now = s.now := by
  constructor
  · unfold State.entry
    rw [ctb_eq_of_stock (stock_countPallet d s)]
  · exact congrArg (fun x => x.moc.clock) (fixed_countPallet d s)

/-- Settles O29: the checks of ADMIT in their order, then the record in the lowest free entry. -/
theorem admitCreatesTheRecord : Obligations.AdmitCreatesTheRecord := by
  refine ⟨availableIn_of_group (g := .run) rfl, ?_, ?_⟩
  · intro f s t tag c1 c0 d1 d0 h hargs hrange
    exact exec_refused rfl h (hargs ▸ admitReply_of_range hrange t)
  · intro f s t tag c d h hargs free open_
    have hreply : ownerReply .admission f.args t = tryAdmit tag c d t := hargs ▸ admitReply_be tag c d t
    refine ⟨fun hb => exec_refused rfl h (hreply.trans (tryAdmit_of_no_class hb)),
      fun hb hf => exec_refused rfl h (hreply.trans (tryAdmit_of_duplicate hb hf)),
      fun hb hf hi => exec_refused rfl h (hreply.trans (tryAdmit_of_full hb hf hi)), fun i hb hf hi => ⟨fun hd => ?_, fun hd => ?_⟩⟩
    · exact exec_refused rfl h (hreply.trans (tryAdmit_of_shut hb hf hi (if_neg hd)))
    · refine exec_answered rfl h ((hreply.trans (tryAdmit_of_claimed hb hf hi (if_pos hd))).trans ?_)
      obtain ⟨hentry, hnow⟩ := countPallet_kept d t i
      simp only [admitPallet, hentry, hnow]
      rfl

/-! ## FIND_TAG, PALLET_READ and CENSUS -/

/-- A list is its count byte and its elements. -/
theorem listOf_eq {α : Type} (f : α → List Byte) (xs : List α) : listOf f xs = [BitVec.ofNat 8 xs.length] ++ xs.flatMap f := by
  simp [listOf, num1, be]

/-- Settles O30: the reads answer from the table and leave the state as it was. -/
theorem custodyReadsAnswer : Obligations.CustodyReadsAnswer := by
  refine ⟨availableIn_of_group (g := .always) rfl, availableIn_of_group (g := .always) rfl, availableIn_of_group (g := .always) rfl,
    ?_, ?_, ?_, ?_⟩
  · intro f s t tag mode h hargs
    refine ⟨?found, ?missing, ?next, ?last, fun hexact hnext => exec_refused rfl h (hargs ▸ findTagReply_of_mode hexact hnext)⟩
    case found =>
      rintro rfl k hf
      exact exec_answered rfl h (hargs ▸ findTagReply_exact hf)
    case missing =>
      rintro rfl hf
      exact exec_refused rfl h (hargs ▸ findTagReply_exact_of_none hf)
    case next =>
      rintro rfl x k hn
      exact exec_answered rfl h (hargs ▸ findTagReply_next hn)
    case last =>
      rintro rfl hn
      exact exec_refused rfl h (hargs ▸ findTagReply_next_of_none hn)
  · intro f s t h hf hargs
    refine ⟨fun hp => exec_refused rfl hf ?_, fun p hp => ?_⟩
    · exact hargs ▸ oneHandle_of_stale hp fun _ p s => done (s.palletResults p) s
    · exact exec_answered rfl hf (hargs ▸ oneHandle_of_live hp fun _ p s => done (s.palletResults p) s)
  · intro f s t h
    refine ⟨fun hargs => exec_refused rfl h (hargs ▸ rfl), fun n list hargs hbad => ?_⟩
    exact exec_refused rfl h (hargs ▸ censusReply_of_bad hbad t)
  · intro f s t hs h hpos hmax hargs
    refine (exec_answered rfl h (hargs ▸ censusReply_handles hpos hmax t)).trans ?_
    rw [listOf_eq]
    refine congrArg (fun results => answered f .ok ([BitVec.ofNat 8 hs.length] ++ results) t) (List.flatMap_congr fun k _ => ?_)
    unfold State.censusElement
    cases t.pallet? k <;> rfl

/-! ## HOLD_SET and HOLD_CLEAR -/

theorem holdSet_decided {f : RequestFrame} {s t : State} {h : Handle} {hold : Byte} (hf : HandsOff 0x25 f s t)
    (hargs : f.args = be 2 h.code ++ [hold]) {p : Pallet} (hp : t.pallet? h = some p) :
    (hold ≠ 2#8 → exec .holdSet s = refusedWith f .badArg t)
    ∧ (hold = 2#8 → p.holds.quality = true → exec .holdSet s = refusedWith f .already t)
    ∧ (hold = 2#8 → p.holds.quality = false → exec .holdSet s =
        answered f .ok [{ p.holds with quality := true }.byte] (setQuality h t)) := by
  have hreply : ownerReply .holdSet f.args t = _ := hargs ▸ holdSetReply_of_live hp hold
  refine ⟨fun hne => exec_refused rfl hf ?_, fun heq hq => exec_refused rfl hf ?_, fun heq hq => exec_answered rfl hf ?_⟩
  · rw [hreply, if_pos hne]
  · rw [hreply, if_neg (not_not.2 heq), if_pos hq]
  · rw [hreply, if_neg (not_not.2 heq), hq]
    rfl

theorem holdClear_decided {f : RequestFrame} {s t : State} {h : Handle} {hold : Byte} (hf : HandsOff 0x26 f s t)
    (hargs : f.args = be 2 h.code ++ [hold]) {p : Pallet} (hp : t.pallet? h = some p) :
    (hold = 2#8 → p.holds.quality = true → exec .holdClear s =
        answered f .ok [] (t.updPallet h fun x => { x with holds := { x.holds with quality := false } }))
    ∧ (hold = 2#8 → p.holds.quality = false → exec .holdClear s = refusedWith f .already t)
    ∧ (hold = 1#8 ∨ hold = 3#8 → exec .holdClear s = refusedWith f .locked t)
    ∧ (hold ≠ 1#8 → hold ≠ 2#8 → hold ≠ 3#8 → exec .holdClear s = refusedWith f .badArg t) := by
  have hreply : ownerReply .holdClear f.args t = _ := hargs ▸ holdClearReply_of_live hp hold
  refine ⟨fun heq hq => exec_answered rfl hf ?_, fun heq hq => exec_refused rfl hf ?_, fun hlocked => exec_refused rfl hf ?_,
    fun h1 h2 h3 => exec_refused rfl hf ?_⟩
  · rw [hreply, if_pos heq, if_pos hq]
    rfl
  · rw [hreply, if_pos heq, hq]
    rfl
  · have hne : hold ≠ 2#8 := by rcases hlocked with rfl | rfl <;> decide
    rw [hreply, if_neg hne, if_pos hlocked]
  · rw [hreply, if_neg h2, if_neg (not_or.2 ⟨h1, h3⟩)]

/-- Settles O31: only QUALITY is set and cleared by request, each where it is a change. -/
theorem holdSetAndClear : Obligations.HoldSetAndClear := by
  refine ⟨availableIn_of_group (g := .wide) rfl, availableIn_of_group (g := .wide) rfl, ?_, ?_⟩
  · intro f s t h hold hf hargs
    exact ⟨fun hp => exec_refused rfl hf (hargs ▸ holdSetReply_of_stale hp hold), fun p hp => holdSet_decided hf hargs hp⟩
  · intro f s t h hold hf hargs
    exact ⟨fun hp => exec_refused rfl hf (hargs ▸ holdClearReply_of_stale hp hold), fun p hp => holdClear_decided hf hargs hp⟩

/-! ## RETIRE and PLACE_CORRECT -/

theorem retire_of_ordered {h : Handle} {p : Pallet} {s : State} (hlive : p.liveOrder ≠ none) : retire h p s = .error .busy :=
  if_pos (Option.isSome_iff_ne_none.2 hlive)

theorem retire_of_free {h : Handle} {p : Pallet} {s : State} (hlive : p.liveOrder = none) :
    retire h p s = done [] (retirePallet h s) := by
  simp [retire, hlive]

/-- Settles O32: RETIRE and PLACE_CORRECT wait for the live order, and a correction moves PDR's claims with the record. -/
theorem retireAndPlaceCorrect : Obligations.RetireAndPlaceCorrect := by
  refine ⟨availableIn_of_group (g := .wide) rfl, availableIn_of_group (g := .wide) rfl, ?_, ?_⟩
  · intro f s t h hf hargs
    refine ⟨fun hp => exec_refused rfl hf (hargs ▸ oneHandle_of_stale hp _), fun p hp => ?_⟩
    have hreply : ownerReply .retire f.args t = retire h p t := hargs ▸ oneHandle_of_live hp retire
    refine ⟨fun hlive => exec_refused rfl hf (hreply.trans (retire_of_ordered hlive)), fun hlive => ?_⟩
    rw [← retirePallet_of_live hp]
    exact exec_answered rfl hf (hreply.trans (retire_of_free hlive))
  · intro f s t h n hf hn hargs
    refine ⟨fun hp => exec_refused rfl hf (hargs ▸ placeCorrectReply_of_stale n hp), fun p hp => ⟨fun hr => ?_, fun q hr => ?_⟩⟩
    · exact exec_refused rfl hf (hargs ▸ placeCorrectReply_of_no_place hn hp hr)
    · refine ⟨fun hlive => ?busy, fun hlive hv => ?invalid, fun hlive hv hne rc ho => ?refused, fun hlive hv u hu => ?corrected⟩
      case busy => exact exec_refused rfl hf (hargs ▸ placeCorrectReply_of_ordered hn hp hr (Option.isSome_iff_ne_none.2 hlive))
      case invalid => exact exec_refused rfl hf (hargs ▸ placeCorrectReply_of_invalid hn hp hr hlive hv)
      case refused =>
        exact exec_refused rfl hf (hargs ▸ placeCorrectReply_of_refused hn hp hr hlive hv (correctPlace_of_refused hne ho))
      case corrected =>
        have hcorrect : correctPlace h p q t = .ok u := by
          rcases hu with ⟨rfl, rfl⟩ | ⟨hne, v, ho, rfl⟩
          · exact correctPlace_same u h p
          · exact correctPlace_of_occupied hne ho
        exact exec_answered rfl hf (hargs ▸ placeCorrectReply_of_corrected hn hp hr hlive hv hcorrect)

end Sys2Proof.Machine
end

section
/-! SUPPORT. The statements about the requests to MDS, each by what its owner answers: MOVE, MOVE_BATCH, MOVE_CANCEL, MOVE_REDIRECT,
the reads and MOVE_COLLECT, DISPATCH_HOLD and TERMINAL_SET (R51 to R57, R68, R74, R75). -/

namespace Sys2Proof.Machine

/-! ## The fields of the requests to MDS -/

theorem readPriority_of_ne {b : Byte} (hnormal : b ≠ 0#8) (hurgent : b ≠ 1#8) : readPriority b = none := by
  unfold readPriority
  split
  next h => exact absurd (BitVec.eq_of_toNat_eq h) hnormal
  next h => exact absurd (BitVec.eq_of_toNat_eq h) hurgent
  next => rfl

theorem readFlag_of_ne {b : Byte} (hfalse : b ≠ 0#8) (htrue : b ≠ 1#8) : readFlag b = none := by
  rw [readFlag, if_neg hfalse, if_neg htrue]

/-! ## MOVE -/

section
variable {s : State} {h : Handle} {p : Pallet} {dest : Dest} {prio : Priority}

/-- R51, fourth check: what makes a destination BAD_ARG for a pallet that stands at `place`. -/
def State.moveBad (s : State) (place : Place) (dest : Dest) : Bool :=
  place.isCarried || decide (dest = .place place) || (place.isDoor && dest.isDoor) || !s.destValid dest

theorem moveBad_iff (s : State) (place : Place) (dest : Dest) : s.moveBad place dest = true ↔
    place.isCarried = true ∨ dest = .place place ∨ (place.isDoor = true ∧ dest.isDoor = true) ∨ s.destValid dest = false := by
  simp only [State.moveBad, Bool.or_eq_true, Bool.and_eq_true, decide_eq_true_eq, Bool.not_eq_true', or_assoc]

theorem moveSessionsOk_iff (s : State) (place : Place) (dest : Dest) : s.moveSessionsOk place dest = true ↔
    (∀ d, place = .atDoor d → s.inboundAt d = true) ∧ ∀ e, dest = .place (.atDoor e) → s.outboundAt e = true := by
  refine Bool.and_eq_true_iff.trans (and_congr ?origin ?dest)
  case origin => cases place <;> simp
  case dest =>
    cases dest with
    | anySlot r => simp
    | place q => cases q <;> simp

theorem tryMove_of_stale (hp : s.pallet? h = none) : tryMove h (some dest) prio s = .error .staleHandle := by
  simp only [tryMove, hp]

theorem tryMove_of_ordered (hp : s.pallet? h = some p) (hlive : p.liveOrder ≠ none) :
    tryMove h (some dest) prio s = .error .busy := by
  simp only [tryMove, hp, if_pos hlive]

/-- R51: the checks that follow that of the live order, in their order. -/
theorem tryMove_of_free (hp : s.pallet? h = some p) (hlive : p.liveOrder = none) : tryMove h (some dest) prio s =
    if s.moveBad p.place dest then .error .badArg
    else if !s.moveSessionsOk p.place dest then .error .doorState
    else if s.destOutbound dest && p.holds.any then .error .held
    else match s.freeOrderEntry with
      | none => .error .tableFull
      | some i => createOrder i h p.place dest prio s := by
  simp only [tryMove, hp, if_neg (not_not.2 hlive)]
  rfl

theorem createOrder_of_refused {i : Nat} {origin : Place} {rc : ResultCode}
    (hr : reserveClaim { index := Fin.ofNat 4096 i, gen := (s.orderEntry i).gen } dest s = .error rc) :
    createOrder i h origin dest prio s = .error rc := by
  simp only [createOrder, hr]

theorem bindClaim_of_free {o : OrderId} (hp : s.pallet? h = some p) (hlive : p.liveOrder = none) :
    bindClaim h o s = some (s.updPallet h fun y => { y with liveOrder := some o }) := by
  simp only [bindClaim, hp, if_pos hlive]

/-- R52: the record of a new order. -/
def newOrder (h : Handle) (origin dest : Place) (prio : Priority) (s : State) : Order :=
  { pallet := h, origin := origin, dest := dest, priority := prio, state := .queued, terminal := none
    routeDoor := routeDoor origin dest, createdAt := s.moc.clock, finishedAt := none, outcome := none, seqNo := s.mds.nextSeq }

/-- R52: with the destination reserved, a pallet with no live order is bound and the order stands in its entry. -/
theorem createOrder_of_reserved {i : Nat} {origin q : Place} {u : State} {o : OrderId}
    (ho : o = { index := Fin.ofNat 4096 i, gen := (s.orderEntry i).gen }) (hp : s.pallet? h = some p) (hlive : p.liveOrder = none)
    (hr : reserveClaim o dest s = .ok (q, u)) : createOrder i h origin dest prio s =
      let v := (u.updPallet h fun y => { y with liveOrder := some o }).setOrderEntry i
        { gen := (s.orderEntry i).gen, rec? := some (newOrder h origin q prio s) }
      .ok (o, q, v.withMds { v.mds with nextSeq := s.mds.nextSeq + 1 }) := by
  subst ho
  have hpu : u.pallet? h = some p := (pallet_eq_of_entries (congrArg Ctb.entries (ctb_reserveClaim hr)) h).trans hp
  simp only [createOrder, hr, bindClaim_of_free hpu hlive]
  rfl

end

section
variable {s : State} {h : Handle} {n : Nat} {prio : Priority} {dest : Dest}

theorem moveReply_of_priority {b : Byte} (hnormal : b ≠ 0#8) (hurgent : b ≠ 1#8) :
    moveReply (be 2 h.code ++ be 2 n ++ [b]) s = .error .badArg := by
  simp only [moveReply, be_two, List.cons_append, List.nil_append, readPriority_of_ne hnormal hurgent]

theorem moveReply_of_no_dest (hn : n < 65536) (hd : readDest n = none) :
    moveReply (be 2 h.code ++ be 2 n ++ [prio.byte]) s = .error .badArg := by
  simp only [moveReply, be_two, List.cons_append, List.nil_append, readPriority_byte, num_be hn, hd]

theorem moveReply_of_refused {rc : ResultCode} (hn : n < 65536) (hd : readDest n = some dest)
    (ht : tryMove h (some dest) prio s = .error rc) :
    moveReply (be 2 h.code ++ be 2 n ++ [prio.byte]) s = .error rc := by
  simp only [moveReply, be_two, List.cons_append, List.nil_append, readPriority_byte, num_be hn, hd, num_be h.code_lt,
    readHandle_code, ht]

theorem moveReply_of_created {o : OrderId} {q : Place} {t : State} (hn : n < 65536) (hd : readDest n = some dest)
    (ht : tryMove h (some dest) prio s = .ok (o, q, t)) :
    moveReply (be 2 h.code ++ be 2 n ++ [prio.byte]) s = done (order2 o ++ place2 q) (dispatchPass t) := by
  simp only [moveReply, be_two, List.cons_append, List.nil_append, readPriority_byte, num_be hn, hd, num_be h.code_lt,
    readHandle_code, ht]

end

/-- Settles O34: the checks of MOVE in their order, then the order in the lowest free entry and a dispatch pass. -/
theorem moveCreatesTheOrder : Obligations.MoveCreatesTheOrder := by
  refine ⟨availableIn_of_group (g := .run) rfl, ?_, ?_⟩
  · intro f s t h n b hf hargs hnormal hurgent
    exact exec_refused rfl hf (hargs ▸ moveReply_of_priority hnormal hurgent)
  intro f s t h n prio hf hn hargs
  refine ⟨fun hd => exec_refused rfl hf (hargs ▸ moveReply_of_no_dest hn hd), fun dest hd => ?_⟩
  have refused {rc : ResultCode} (ht : tryMove h (some dest) prio t = .error rc) : exec .move s = refusedWith f rc t :=
    exec_refused rfl hf (hargs ▸ moveReply_of_refused hn hd ht)
  refine ⟨fun hp => refused (tryMove_of_stale hp), fun p hp => ?_⟩
  intro bad sessions held
  have hbad : t.moveBad p.place dest = true ↔ bad := moveBad_iff t p.place dest
  have hsessions : t.moveSessionsOk p.place dest = true ↔ sessions := moveSessionsOk_iff t p.place dest
  have hheld : (t.destOutbound dest && p.holds.any) = true ↔ held := by rw [Bool.and_eq_true]
  refine ⟨fun hlive => refused (tryMove_of_ordered hp hlive), fun hlive => ?_⟩
  have htry := tryMove_of_free (dest := dest) (prio := prio) hp hlive
  refine ⟨fun b => refused ?bad, fun b n => refused ?sessions, fun b y e => refused ?held, fun b y e hi => refused ?full,
    fun i b y e hi => ?created⟩
  case bad => rw [htry, if_pos (hbad.2 b)]
  case sessions => simp [htry, mt hbad.1 b, mt hsessions.1 n]
  case held => simp [htry, mt hbad.1 b, hsessions.2 y, hheld.2 e]
  case full => simp [htry, mt hbad.1 b, hsessions.2 y, mt hheld.1 e, hi]
  case created =>
    have hcreate : tryMove h (some dest) prio t = createOrder i h p.place dest prio t := by
      simp [htry, mt hbad.1 b, hsessions.2 y, mt hheld.1 e, hi]
    refine ⟨fun rc hr => refused (hcreate.trans (createOrder_of_refused hr)), fun q u hr => ?_⟩
    have hreply := moveReply_of_created hn hd (hcreate.trans (createOrder_of_reserved rfl hp hlive hr))
    rw [← hargs] at hreply
    exact exec_answered rfl hf hreply

/-! ## MOVE_BATCH -/

theorem length_flatMap_flag1 (marks : List Bool) : (marks.flatMap flag1).length = marks.length := by
  induction marks with
  | nil => rfl
  | cons b rest ih => simp [flag1, ih]

theorem length_flatMap_be {α : Type} (k : Nat) (g : α → Nat) (xs : List α) :
    (xs.flatMap fun x => be k (g x)).length = k * xs.length := by
  induction xs with
  | nil => rfl
  | cons x rest ih => simp [ih, Nat.mul_add, Nat.add_comm]

theorem mapM_readFlag_flag1 (marks : List Bool) : (marks.flatMap flag1).mapM readFlag = some marks := by
  induction marks with
  | nil => rfl
  | cons b rest ih => simp [flag1, ih]

section
variable {n m : Byte} {hs more : List Byte}

/-- R53: a count outside 1 to 32, or mark bytes that are not as many as the handles, spoil the whole list. -/
theorem readBatch_of_count (hlen : hs.length = 2 * n.toNat) (hbad : m ≠ n ∨ n.toNat = 0 ∨ 32 < n.toNat) :
    readBatch (n :: (hs ++ m :: more)) = none := by
  simp only [readBatch, List.drop_left' hlen, List.take_left' hlen]
  split
  · split
    · exact if_neg fun ⟨hpos, hmax, hsame, _⟩ => hbad.elim (· hsame) (by omega)
    · rfl
  · rfl

section
variable {ms : List Byte} {a1 a0 b1 b0 prio : Byte} (hlen : hs.length = 2 * n.toNat) (hmarks : ms.length = n.toNat)
include hlen hmarks

theorem readBatch_of_priority (hprio : readPriority prio = none) :
    readBatch (n :: (hs ++ m :: (ms ++ [a1, a0, b1, b0, prio]))) = none := by
  simp only [readBatch, List.drop_left' hlen, List.take_left' hlen, List.drop_left' hmarks, List.take_left' hmarks]
  split
  next heq =>
    obtain ⟨-, -, -, -, rfl, -⟩ := by simpa using heq
    rw [hprio]
  next => rfl

theorem readBatch_of_fields {codes : List Nat} {marks : List Bool} {p : Priority} (hcodes : readNums hs = some codes)
    (hflags : ms.mapM readFlag = some marks) (hprio : readPriority prio = some p) (hpos : 1 ≤ n.toNat) (hmax : n.toNat ≤ 32)
    (hcount : codes.length = n.toNat) (hsame : marks.length = n.toNat) :
    readBatch (n :: (hs ++ n :: (ms ++ [a1, a0, b1, b0, prio]))) =
      some { elements := codes.zip marks, destA := readDest (num a1 a0), destB := readDest (num b1 b0), priority := p } := by
  simp only [readBatch, List.drop_left' hlen, List.take_left' hlen, List.drop_left' hmarks, List.take_left' hmarks, hcodes,
    hflags, hprio]
  exact if_pos ⟨hpos, hmax, trivial, hcount, hsame⟩

end

end

/-- The count byte of a list that fits a request. -/
theorem toNat_count {k : Nat} (h : k ≤ 45) : (BitVec.ofNat 8 k).toNat = k := by
  rw [BitVec.toNat_ofNat]
  omega

/-- R53: a list of handles with as many marks is read as its elements, in list order. -/
theorem readBatch_elements {xs : List (Handle × Bool)} {a b : Nat} (p : Priority) (ha : a < 65536) (hb : b < 65536)
    (hpos : 1 ≤ xs.length) (hmax : xs.length ≤ 32) :
    readBatch (BitVec.ofNat 8 xs.length :: ((xs.flatMap fun x => be 2 x.1.code) ++
        BitVec.ofNat 8 xs.length :: ((xs.map (·.2)).flatMap flag1 ++ (be 2 a ++ be 2 b ++ [p.byte])))) =
      some { elements := xs.map fun x => (x.1.code, x.2), destA := readDest a, destB := readDest b, priority := p } := by
  have hk : (BitVec.ofNat 8 xs.length).toNat = xs.length := toNat_count (by omega)
  have hcodes : readNums (xs.flatMap fun x => be 2 x.1.code) = some (xs.map (·.1.code)) := by
    simpa [List.flatMap_map, Function.comp_def] using readNums_handles (xs.map (·.1))
  rw [be_two a, be_two b]
  refine (readBatch_of_fields (by rw [hk, length_flatMap_be]) (by rw [hk, length_flatMap_flag1, List.length_map]) hcodes
    (mapM_readFlag_flag1 _) (readPriority_byte p) (hk.symm ▸ hpos) (hk.symm ▸ hmax) (by simp [hk]) (by simp [hk])).trans ?_
  rw [num_be ha, num_be hb, List.zip_map']

theorem moveBatchReply_of_bad {args : List Byte} {s : State} (h : readBatch args = none) :
    moveBatchReply args s = .error .badArg := by
  simp only [moveBatchReply, h]

theorem moveBatchReply_of_elements {args : List Byte} {xs : List (Handle × Bool)} {a b : Option Dest} {p : Priority} {s : State}
    (h : readBatch args = some { elements := xs.map fun x => (x.1.code, x.2), destA := a, destB := b, priority := p }) :
    moveBatchReply args s =
      done (batchResults (batchElements a b p xs s).1) (dispatchPass (batchElements a b p xs s).2) := by
  have hxs : (xs.map fun x => (x.1.code, x.2)).map (fun x => (readHandle x.1, x.2)) = xs := by
    simp [Function.comp_def]
  simp only [moveBatchReply, h, hxs]

section
variable {a b : Option Dest} {p : Priority} {h : Handle} {marked : Bool} {rest : List (Handle × Bool)} {s : State}

theorem batchElements_of_created {o : OrderId} {q : Place} {t : State}
    (hone : tryMove h (if marked then a else b) p s = .ok (o, q, t)) : batchElements a b p ((h, marked) :: rest) s =
      ((.ok, some o) :: (batchElements a b p rest t).1, (batchElements a b p rest t).2) := by
  simp only [batchElements, hone]

theorem batchElements_of_full (hone : tryMove h (if marked then a else b) p s = .error .tableFull) :
    batchElements a b p ((h, marked) :: rest) s = ((.tableFull, none) :: rest.map fun _ => (.tableFull, none), s) := by
  simp only [batchElements, hone]

theorem batchElements_of_refused {rc : ResultCode} (hrc : rc ≠ .tableFull)
    (hone : tryMove h (if marked then a else b) p s = .error rc) : batchElements a b p ((h, marked) :: rest) s =
      ((rc, none) :: (batchElements a b p rest s).1, (batchElements a b p rest s).2) := by
  simp only [batchElements, hone]

end

/-- Settles O35: the list is read as its elements, each is decided as a MOVE, and one pass follows. -/
theorem moveBatchTakesEachElement : Obligations.MoveBatchTakesEachElement := by
  refine ⟨availableIn_of_group (g := .run) rfl, ?_, fun a b p h marked rest s =>
    ⟨fun _ _ _ => batchElements_of_created, batchElements_of_full, fun _ => batchElements_of_refused⟩⟩
  intro f s t xs marks a b prio hf ha hb hxs hmarks hargs
  have hshape : f.args = BitVec.ofNat 8 xs.length :: ((xs.flatMap fun x => be 2 x.1.code) ++
      BitVec.ofNat 8 marks.length :: (marks.flatMap flag1 ++ (be 2 a ++ be 2 b ++ [prio]))) := by
    simp only [hargs, List.append_assoc, List.cons_append, List.nil_append]
  refine ⟨fun p hsame hpos hmax hprio => ?_, fun hbad => exec_refused rfl hf (moveBatchReply_of_bad ?_)⟩
  · subst hsame hprio
    have hread := readBatch_elements (xs := xs) p ha hb hpos hmax
    rw [List.length_map] at hshape
    rw [← hshape] at hread
    refine (exec_answered (c := .moveBatch) rfl hf (moveBatchReply_of_elements hread)).trans ?_
    rw [batchResults, listOf_eq, ← List.append_assoc]
    rfl
  · have hk : (BitVec.ofNat 8 xs.length).toNat = xs.length := toNat_count hxs
    have hhandles : (xs.flatMap fun x => be 2 x.1.code).length = 2 * (BitVec.ofNat 8 xs.length).toNat := by
      rw [hk, length_flatMap_be]
    rw [hshape]
    by_cases hlen : xs.length = marks.length
    · rcases hbad with h0 | hmany | hne | ⟨hnormal, hurgent⟩
      · exact readBatch_of_count hhandles (.inr (.inl (hk.trans h0)))
      · exact readBatch_of_count hhandles (.inr (.inr (hk.symm ▸ hmany)))
      · exact absurd hlen hne
      · rw [be_two a, be_two b]
        exact readBatch_of_priority hhandles (by rw [hk, length_flatMap_flag1, hlen]) (readPriority_of_ne hnormal hurgent)
    · refine readBatch_of_count hhandles (.inl fun h => hlen ?_)
      rw [← hk, ← h, toNat_count hmarks]

/-! ## The withdrawal and the abandon of an order -/

section
variable {o : OrderId} {x : Order} {s : State}

/-- R68: a QUEUED order is withdrawn without its terminal, having none. -/
theorem withdrawOrder_of_queued (out : Outcome) (hx : s.order? o = some x) (hstate : x.state = .queued) :
    withdrawOrder out o s = dispatchPass (finishOrder o out (unbindClaim x.pallet o (releaseClaim o x.dest s))) := by
  simp [withdrawOrder, hx, hstate]

/-- R68: the terminal of a GRANTED order is sent REVOKE first. -/
theorem withdrawOrder_of_granted {k : Fin 16} (out : Outcome) (hx : s.order? o = some x) (hstate : x.state = .granted)
    (hk : x.terminal = some k) : withdrawOrder out o s = dispatchPass (finishOrder o out (unbindClaim x.pallet o
      (releaseClaim o x.dest (placeTerm k (.revoke o) (termIdle k (leaveUseList x.routeDoor o s)))))) := by
  simp [withdrawOrder, hx, hstate, hk]

theorem occupyClaim_floor_of_unused {h : Handle} {r : Fin 8} (hk : s.kind r = .unused) :
    occupyClaim h (.floor r) s = .error .badArg := by
  simp [occupyClaim, State.placeValid, hk]

theorem occupyClaim_floor {h : Handle} {r : Fin 8} (hk : s.kind r ≠ .unused) :
    occupyClaim h (.floor r) s = .ok (s.updFloor r (insertHandle h)) := by
  simp [occupyClaim, State.placeValid, hk]

/-- R65: a room that is no room, or an UNUSED one, takes no pallet. -/
theorem abandonOrder_of_no_room {room : Nat} (out : Outcome) (hroom : 8 ≤ room ∨ ∃ r : Fin 8, room = r.1 ∧ s.kind r = .unused) :
    abandonOrder o x room out s = none := by
  rcases hroom with hge | ⟨r, rfl, hk⟩
  · simp only [abandonOrder, readFin_of_le hge]
  · simp only [abandonOrder, readFin_val, occupyClaim_floor_of_unused hk]

/-- R65: the pallet joins the room's floor and the order is FINISHED. -/
theorem abandonOrder_of_room {r : Fin 8} (out : Outcome) (hk : s.kind r ≠ .unused) : abandonOrder o x r.1 out s =
    some (finishOrder o out (leaveUseList x.routeDoor o (abandonClaim x.pallet o r (releaseClaim o x.dest
      (s.updFloor r (insertHandle x.pallet)))))) := by
  simp only [abandonOrder, readFin_val, occupyClaim_floor hk]

end

/-! ## MOVE_CANCEL -/

/-- R201: a presence flag above 01h, or an absent field with other bytes (log entry 50). -/
theorem readOptional_of_bad {flag : Byte} {n : Nat} (h : 1 < flag.toNat ∨ (flag = 0#8 ∧ n ≠ 0)) : readOptional flag n = none := by
  rcases h with hgt | ⟨rfl, hn⟩
  · simp only [readOptional, readFlag_of_gt hgt]
  · exact if_neg hn

theorem moveCancelReply_of_bad {o1 o0 flag r1 r0 : Byte} (h : 1 < flag.toNat ∨ (flag = 0#8 ∧ beNat [r1, r0] ≠ 0)) (s : State) :
    moveCancelReply [o1, o0, flag, r1, r0] s = .error .badArg := by
  have hnone : readOptional flag (num r1 r0) = none := readOptional_of_bad h
  simp only [moveCancelReply, hnone]

section
variable {o : OrderId} {x : Order} {s : State} {room : Option Nat}

/-- An optional 16-bit number reads back. -/
theorem optField_two (hroom : ∀ r ∈ room, r < 65536) : ∃ flag r1 r0 : Byte, optField 2 (room.map (be 2)) = [flag, r1, r0]
    ∧ readOptional flag (num r1 r0) = some room := by
  cases room with
  | none => exact ⟨0#8, 0#8, 0#8, by simp [optField, flag1, be_two], by decide⟩
  | some r => exact ⟨1#8, _, _, by simp [optField, flag1, be_two], congrArg (fun n => some (some n)) (num_be (hroom r rfl))⟩

theorem moveCancelReply_of_stale (hroom : ∀ r ∈ room, r < 65536) (hx : s.order? o = none) :
    moveCancelReply (be 2 o.code ++ optField 2 (room.map (be 2))) s = .error .staleHandle := by
  obtain ⟨flag, r1, r0, hbytes, hread⟩ := optField_two hroom
  simp only [moveCancelReply, hbytes, be_two, List.cons_append, List.nil_append, hread, num_be o.code_lt, readOrderId_code, hx]

theorem moveCancelReply_of_order (hroom : ∀ r ∈ room, r < 65536) (hx : s.order? o = some x) :
    moveCancelReply (be 2 o.code ++ optField 2 (room.map (be 2))) s = cancelOrder o x room s := by
  obtain ⟨flag, r1, r0, hbytes, hread⟩ := optField_two hroom
  simp only [moveCancelReply, hbytes, be_two, List.cons_append, List.nil_append, hread, num_be o.code_lt, readOrderId_code, hx]

theorem cancelOrder_of_waiting (hstate : x.state = .queued ∨ x.state = .granted) :
    cancelOrder o x room s = done [] (withdrawOrder .withdrawnCancelled o s) := by
  rcases hstate with h | h <;> simp only [cancelOrder, h]

theorem cancelOrder_of_finished (hstate : x.state = .finished) : cancelOrder o x room s = .error .orderState := by
  simp only [cancelOrder, hstate]

/-- R68: a carried order stays, unless a room is given and its terminal is OFFLINE. -/
theorem cancelOrder_of_in_carry (hstate : x.state = .carrying)
    (h : room = none ∨ ∀ k, x.terminal = some k → (s.terminal k).state ≠ .offline) :
    cancelOrder o x room s = .error .inCarry := by
  simp only [cancelOrder, hstate]
  split
  next k r hk =>
    rcases h with h | h
    · cases h
    · exact if_neg (h k hk)
  next => rfl

theorem cancelOrder_of_carried {k : Fin 16} {r : Nat} (hstate : x.state = .carrying) (hk : x.terminal = some k)
    (hoff : (s.terminal k).state = .offline) : cancelOrder o x (some r) s = cancelCarried o x k r s := by
  simp only [cancelOrder, hstate, hk, if_pos hoff]

end

/-- Settles O36: the order's state decides whether it is withdrawn, refused, or abandoned to a floor. -/
theorem moveCancelEndsTheOrder : Obligations.MoveCancelEndsTheOrder := by
  refine ⟨availableIn_of_group (g := .wide) rfl, ?_, ?_, fun out o s x hx =>
    ⟨withdrawOrder_of_queued out hx, fun k => withdrawOrder_of_granted out hx⟩⟩
  · intro f s t o1 o0 b r1 r0 hf hargs hbad
    exact exec_refused rfl hf (hargs ▸ moveCancelReply_of_bad hbad t)
  intro f s t o room hf hroom hargs
  refine ⟨fun hx => exec_refused rfl hf (hargs ▸ moveCancelReply_of_stale hroom hx), fun x hx => ?_⟩
  have hreply : ownerReply .moveCancel f.args t = cancelOrder o x room t := hargs ▸ moveCancelReply_of_order hroom hx
  refine ⟨fun hstate => exec_answered rfl hf (hreply.trans (cancelOrder_of_waiting hstate)),
    fun hstate => exec_refused rfl hf (hreply.trans (cancelOrder_of_finished hstate)),
    fun hstate h => exec_refused rfl hf (hreply.trans (cancelOrder_of_in_carry hstate h)), ?_⟩
  rintro k r hstate hk hoff rfl
  have hcarried := hreply.trans (cancelOrder_of_carried hstate hk hoff)
  refine ⟨fun hbad => exec_refused rfl hf ?_, fun q hq hkind => exec_answered rfl hf ?_⟩
  · rw [hcarried, cancelCarried, abandonOrder_of_no_room _ hbad]
  · subst hq
    rw [hcarried, cancelCarried, abandonOrder_of_room _ hkind]
    rfl

/-! ## MOVE_REDIRECT -/

section
variable {o : OrderId} {x : Order} {dest : Dest} {s : State}

/-- R74, fifth check: what makes a new destination BAD_ARG for an order. -/
def State.redirectBad (s : State) (x : Order) (dest : Dest) : Bool :=
  !s.destValid dest || (decide (x.state ≠ .carrying) && decide (dest = .place x.origin)) || (x.origin.isDoor && dest.isDoor)

theorem redirectBad_iff (s : State) (x : Order) (dest : Dest) : s.redirectBad x dest = true ↔
    s.destValid dest = false ∨ (x.state ≠ .carrying ∧ dest = .place x.origin) ∨ (x.origin.isDoor = true ∧ dest.isDoor = true) := by
  simp only [State.redirectBad, Bool.or_eq_true, Bool.and_eq_true, decide_eq_true_eq, Bool.not_eq_true', or_assoc]

theorem redirectSessionOk_iff (s : State) (x : Order) (dest : Dest) : s.redirectSessionOk x dest = true ↔
    ∀ e, dest = .place (.atDoor e) → s.outboundAt e = true ∧ (x.state = .carrying → (s.door e).state ≠ .unsealing) := by
  cases dest with
  | anySlot r => simp [State.redirectSessionOk]
  | place q => cases q <;> simp [State.redirectSessionOk, ← imp_iff_not_or]

theorem tryRedirect_of_finished (hstate : x.state = .finished) : tryRedirect o x dest s = .error .orderState := if_pos hstate

/-- R74: the checks that follow that of the state, in their order. -/
theorem tryRedirect_of_live (hstate : x.state ≠ .finished) : tryRedirect o x dest s =
    if dest = .place x.dest then .error .already
    else if s.redirectBad x dest then .error .badArg
    else if !s.redirectSessionOk x dest then .error .doorState
    else if s.destOutbound dest && s.held x.pallet then .error .held
    else match reserveClaim o dest s with
      | .error rc => .error rc
      | .ok (p, s1) =>
        .ok (p, (releaseClaim o x.dest s1).updOrder o fun y => { y with dest := p, routeDoor := routeDoor x.origin p }) := by
  rw [tryRedirect, if_neg hstate]
  rfl

variable {n : Nat}

theorem moveRedirectReply_of_no_dest (hn : n < 65536) (hd : readDest n = none) :
    moveRedirectReply (be 2 o.code ++ be 2 n) s = .error .badArg := by
  simp only [moveRedirectReply, be_two, List.cons_append, List.nil_append, num_be hn, hd]

theorem moveRedirectReply_of_stale (hn : n < 65536) (hd : readDest n = some dest) (hx : s.order? o = none) :
    moveRedirectReply (be 2 o.code ++ be 2 n) s = .error .staleHandle := by
  simp only [moveRedirectReply, be_two, List.cons_append, List.nil_append, num_be hn, hd, num_be o.code_lt, readOrderId_code, hx]

theorem moveRedirectReply_of_refused {rc : ResultCode} (hn : n < 65536) (hd : readDest n = some dest) (hx : s.order? o = some x)
    (ht : tryRedirect o x dest s = .error rc) : moveRedirectReply (be 2 o.code ++ be 2 n) s = .error rc := by
  simp only [moveRedirectReply, be_two, List.cons_append, List.nil_append, num_be hn, hd, num_be o.code_lt, readOrderId_code, hx, ht]

theorem moveRedirectReply_of_moved {q : Place} {t : State} (hn : n < 65536) (hd : readDest n = some dest)
    (hx : s.order? o = some x) (ht : tryRedirect o x dest s = .ok (q, t)) :
    moveRedirectReply (be 2 o.code ++ be 2 n) s = done (place2 q) (afterRedirect o x q t) := by
  simp only [moveRedirectReply, be_two, List.cons_append, List.nil_append, num_be hn, hd, num_be o.code_lt, readOrderId_code, hx, ht]

end

section
variable {o : OrderId} {x : Order} {q : Place} {s : State} {k : Fin 16}

theorem afterRedirect_of_queued (hstate : x.state = .queued) : afterRedirect o x q s = dispatchPass s := by
  simp only [afterRedirect, hstate]

/-- R74: a GRANTED order whose route door stays gets a fresh GRANT. -/
theorem afterRedirect_of_same_route (hstate : x.state = .granted) (hk : x.terminal = some k)
    (hroute : routeDoor x.origin q = x.routeDoor) : afterRedirect o x q s = placeTerm k (grantCmd s o { x with dest := q }) s := by
  simp only [afterRedirect, hstate, hk, if_pos hroute]

section
variable (hstate : x.state = .granted) (hk : x.terminal = some k) (hroute : routeDoor x.origin q ≠ x.routeDoor)
include hstate hk hroute

theorem afterRedirect_of_no_route (hnone : routeDoor x.origin q = none) : afterRedirect o x q s =
    placeTerm k (grantCmd (leaveUseList x.routeDoor o s) o { x with dest := q }) (leaveUseList x.routeDoor o s) := by
  simp only [afterRedirect, hstate, hk, if_neg hroute]
  rw [hnone]

theorem afterRedirect_of_entered {d : Fin 24} {v : State} (hd : routeDoor x.origin q = some d)
    (hv : useListEntry d o (leaveUseList x.routeDoor o s) = some v) :
    afterRedirect o x q s = placeTerm k (grantCmd v o { x with dest := q }) v := by
  simp only [afterRedirect, hstate, hk, if_neg hroute]
  rw [hd]
  simp only [hv]

/-- R74: a new route door that takes no more orders sends the order back to its queue. -/
theorem afterRedirect_of_not_entered {d : Fin 24} (hd : routeDoor x.origin q = some d)
    (hv : useListEntry d o (leaveUseList x.routeDoor o s) = none) : afterRedirect o x q s =
      dispatchPass (placeTerm k (.revoke o) (termIdle k (requeueOrder o (leaveUseList x.routeDoor o s)))) := by
  simp only [afterRedirect, hstate, hk, if_neg hroute]
  rw [hd]
  simp only [hv]

end

/-- R74: the terminal of a carried order is sent DIVERT where it is reachable. -/
theorem afterRedirect_of_carrying (hstate : x.state = .carrying) (hk : x.terminal = some k) :
    let leaves := if routeDoor x.origin q = x.routeDoor then s else leaveUseList x.routeDoor o s
    afterRedirect o x q s = if (s.terminal k).state.reachable then placeTerm k (.divert o q) leaves else leaves := by
  intro leaves
  have hterminal : leaves.terminal k = s.terminal k := by
    unfold leaves
    split
    · rfl
    · cases x.routeDoor <;> rfl
  rw [← hterminal]
  simp only [afterRedirect, hstate, hk]
  rfl

end

/-- Settles O37: the checks of MOVE_REDIRECT in their order, then the reservation moves and the terminal is told by state. -/
theorem moveRedirectChangesTheDestination : Obligations.MoveRedirectChangesTheDestination := by
  refine ⟨availableIn_of_group (g := .wide) rfl, ?_, ?_⟩
  · intro f s t o n hf hn hargs
    refine ⟨fun hd => exec_refused rfl hf (hargs ▸ moveRedirectReply_of_no_dest hn hd), fun dest hd => ?_⟩
    refine ⟨fun hx => exec_refused rfl hf (hargs ▸ moveRedirectReply_of_stale hn hd hx), fun x hx => ?_⟩
    have refused {rc : ResultCode} (ht : tryRedirect o x dest t = .error rc) : exec .moveRedirect s = refusedWith f rc t :=
      exec_refused rfl hf (hargs ▸ moveRedirectReply_of_refused hn hd hx ht)
    intro again bad session held
    have hbad : t.redirectBad x dest = true ↔ bad := redirectBad_iff t x dest
    have hsession : t.redirectSessionOk x dest = true ↔ session := redirectSessionOk_iff t x dest
    have hheld : (t.destOutbound dest && t.held x.pallet) = true ↔ held := by rw [Bool.and_eq_true]
    refine ⟨fun hstate => refused (tryRedirect_of_finished hstate), fun hstate => ?_⟩
    have htry := tryRedirect_of_live (o := o) (dest := dest) (s := t) hstate
    refine ⟨fun a => refused ?again, fun a b => refused ?bad, fun a b y => refused ?session, fun a b y e => refused ?held,
      fun a b y e => ⟨fun rc hr => refused ?reserve, fun q u hr => ?moved⟩⟩
    case again => rw [htry, if_pos a]
    case bad => rw [htry, if_neg a, if_pos (hbad.2 b)]
    case session => simp [htry, show dest ≠ .place x.dest from a, mt hbad.1 b, mt hsession.1 y]
    case held => simp [htry, show dest ≠ .place x.dest from a, mt hbad.1 b, hsession.2 y, hheld.2 e]
    case reserve => simp [htry, show dest ≠ .place x.dest from a, mt hbad.1 b, hsession.2 y, mt hheld.1 e, hr]
    case moved =>
      have hmoved : tryRedirect o x dest t = .ok (q, (releaseClaim o x.dest u).updOrder o fun y =>
          { y with dest := q, routeDoor := routeDoor x.origin q }) := by
        simp [htry, show dest ≠ .place x.dest from a, mt hbad.1 b, hsession.2 y, mt hheld.1 e, hr]
      have hreply := moveRedirectReply_of_moved hn hd hx hmoved
      rw [← hargs] at hreply
      exact exec_answered rfl hf hreply
  · intro o x q s k leaves
    refine ⟨afterRedirect_of_queued, afterRedirect_of_same_route, fun hstate hk hroute => ?_, fun hstate hk hr => ?_,
      fun hstate hk hr => ?_⟩
    · have hleaves : leaves = leaveUseList x.routeDoor o s := if_neg hroute
      rw [hleaves]
      exact ⟨afterRedirect_of_no_route hstate hk hroute, fun d hd => ⟨fun v => afterRedirect_of_entered hstate hk hroute hd,
        afterRedirect_of_not_entered hstate hk hroute hd⟩⟩
    · rw [afterRedirect_of_carrying hstate hk, if_pos hr]
    · rw [afterRedirect_of_carrying hstate hk, if_neg (Bool.eq_false_iff.1 hr)]

/-! ## MOVE_READ, TERMINAL_READ and MOVE_COLLECT -/

section
variable {o : OrderId} {s : State}

theorem moveReadReply_of_order {x : Order} (hx : s.order? o = some x) : moveReadReply (be 2 o.code) s = done x.results s := by
  simp only [moveReadReply, be_two, num_be o.code_lt, readOrderId_code, hx]

theorem moveReadReply_of_stale (hx : s.order? o = none) : moveReadReply (be 2 o.code) s = .error .staleHandle := by
  simp only [moveReadReply, be_two, num_be o.code_lt, readOrderId_code, hx]

end

/-- R46: retiring orders leaves the finished list. -/
theorem finished_forEach_retireOrder (taken : List OrderId) (s : State) :
    (s.forEach taken retireOrder).mds.finished = s.mds.finished :=
  frame_forEach (fun s => s.mds.finished) retireOrder (fun _ _ => rfl) taken s

/-- R177: after an answer, MOVE is pending exactly while finished orders remain. -/
theorem move_pending_iff_of_answered {f : RequestFrame} {rc : ResultCode} {results : List Byte} {u w : State}
    (h : answered f rc results u = .next w) : w.lkp.pendingCauses.move = true ↔ u.mds.finished ≠ [] := by
  obtain rfl : settle (pushAnswer f rc results u) = w := by simpa [answered] using h
  have hmove := settle_moveCause (pushAnswer f rc results u)
  rw [MoveCauseTrue, settle_finished, pushAnswer_mds] at hmove
  simp [hmove]

/-- Settles O38: the reads answer the record as it stands, and a collection retires the first eight finished orders. -/
theorem orderReadsAndCollect : Obligations.OrderReadsAndCollect := by
  refine ⟨availableIn_of_group (g := .always) rfl, availableIn_of_group (g := .wide) rfl, availableIn_of_group (g := .always) rfl,
    ?read, ?terminal, ?collect⟩
  case read =>
    intro f s t o hf hargs
    exact ⟨fun x hx => exec_answered rfl hf (hargs ▸ moveReadReply_of_order hx),
      fun hx => exec_refused rfl hf (hargs ▸ moveReadReply_of_stale hx)⟩
  case terminal =>
    intro f s t k hf hargs
    exact exec_answered rfl hf (hargs ▸ oneFin_be (by decide) (fun k s => done (s.terminal k).results s) k t)
  case collect =>
    intro f s t hf hargs taken u v
    have hanswer : exec .moveCollect s = answered f .ok (listOf Order.results (taken.filterMap t.order?)) v :=
      exec_answered rfl hf (hargs ▸ rfl)
    refine ⟨hanswer, fun w hw => ?_⟩
    have hfinished : v.mds.finished = t.mds.finished.drop 8 := finished_forEach_retireOrder taken u
    rw [move_pending_iff_of_answered (hanswer.symm.trans hw), hfinished, ne_eq, List.drop_eq_nil_iff, not_le]

/-! ## DISPATCH_HOLD -/

theorem terminal_forEach_updTerminal (g : Terminal → Terminal) (xs : List (Fin 16)) (h : xs.Nodup) (s : State) (k : Fin 16) :
    (s.forEach xs fun i s => s.updTerminal i g).terminal k = if k ∈ xs then g (s.terminal k) else s.terminal k := by
  rw [acc_forEach (fun s => s.terminal k) (fun i s => s.terminal i) (fun i x y => if k = i then g x else y)
    (fun i s => s.updTerminal i g) (fun i s => terminal_updTerminal s i k g)
    (fun i j s hne => (terminal_updTerminal s i j g).trans (if_neg hne)) xs s h]
  by_cases hk : k ∈ xs
  · rw [foldl_point k (fun i => g (s.terminal i)) xs _ hk h, if_pos hk]
  · rw [foldl_other k (fun i => g (s.terminal i)) xs _ hk, if_neg hk]

section
variable {k : Fin 16} {v : Bool} {target : Byte} {s : State}

theorem dispatchHoldReply_of_action {action : Byte} (hclear : action ≠ 0#8) (hset : action ≠ 1#8) :
    dispatchHoldReply [target, action] s = .error .badArg := by
  simp only [dispatchHoldReply, readFlag_of_ne hclear hset]

/-- R201: a target of one terminal. -/
theorem dispatchHoldReply_terminal : dispatchHoldReply ([BitVec.ofNat 8 k.1] ++ flag1 v) s =
    if (s.terminal k).dispatchHold = v then .error .already else done [] (setHold v [k] s) := by
  have hk : (BitVec.ofNat 8 k.1).toNat = k.1 := toNat_count (by omega)
  have hall : BitVec.ofNat 8 k.1 ≠ 0xFF#8 := fun h => by
    have := hk.symm.trans (congrArg BitVec.toNat h)
    simp at this
    omega
  simp only [dispatchHoldReply, flag1, List.cons_append, List.nil_append, readFlag_flag, if_neg hall, hk, readFin_val]

theorem dispatchHoldReply_all : dispatchHoldReply ([0xFF#8] ++ flag1 v) s = setAllHolds v s := by
  simp only [dispatchHoldReply, flag1, List.cons_append, List.nil_append, readFlag_flag, if_true]

theorem dispatchHoldReply_of_target (hge : 16 ≤ target.toNat) (hall : target ≠ 0xFF#8) :
    dispatchHoldReply ([target] ++ flag1 v) s = .error .badArg := by
  simp only [dispatchHoldReply, flag1, List.cons_append, List.nil_append, readFlag_flag, if_neg hall, readFin_of_le hge]

/-- R57: one terminal's hold takes the value, and a hold cleared is followed by a pass. -/
theorem setHold_singleton : setHold v [k] s =
    if v then s.updTerminal k fun x => { x with dispatchHold := v }
    else dispatchPass (s.updTerminal k fun x => { x with dispatchHold := v }) := rfl

theorem mem_holdsChanged : k ∈ s.holdsChanged v ↔ (s.terminal k).dispatchHold ≠ v := by
  simp [State.holdsChanged]

/-- R57, ALL: every terminal's hold has the value afterwards. -/
theorem terminal_setEveryHold (v : Bool) (s : State) (k : Fin 16) :
    (s.forEach (s.holdsChanged v) fun i s => s.updTerminal i fun x => { x with dispatchHold := v }).terminal k =
      { s.terminal k with dispatchHold := v } := by
  have hnodup : (s.holdsChanged v).Nodup := (List.nodup_finRange 16).filter _
  rw [terminal_forEach_updTerminal _ _ hnodup]
  split
  next => rfl
  next hk => rw [← not_not.1 (mt mem_holdsChanged.2 hk)]

theorem setAllHolds_eq (v : Bool) (s : State) : setAllHolds v s =
    let u := s.forEach (s.holdsChanged v) fun i s => s.updTerminal i fun x => { x with dispatchHold := v }
    done (num2 (s.holdsChanged v).length) (if v = true ∨ s.holdsChanged v = [] then u else dispatchPass u) := by
  cases hhit : s.holdsChanged v with
  | nil => simp [setAllHolds, hhit]
  | cons i rest => simp [setAllHolds, setHold, hhit]

end

/-! ## TERMINAL_SET -/

section
variable {k : Fin 16} {en : Bool} {s : State}

theorem num_terminal (k : Fin 16) : num (BitVec.ofNat 8 (k.1 / 256)) (BitVec.ofNat 8 k.1) = k.1 := num_be (by omega)

theorem terminalSetReply_of_flag {flag : Byte} (hfalse : flag ≠ 0#8) (htrue : flag ≠ 1#8) :
    terminalSetReply (be 2 k.1 ++ [flag]) s = .error .badArg := by
  simp only [terminalSetReply, be_two, List.cons_append, List.nil_append, readFlag_of_ne hfalse htrue, num_terminal, readFin_val]

theorem terminalSetReply_be : terminalSetReply (be 2 k.1 ++ flag1 en) s =
    if (s.terminal k).enabled = en then .error .already
    else if !en && (s.terminal k).bound.isSome then .error .busy
    else done [] (setTerminal k en s) := by
  simp only [terminalSetReply, be_two, flag1, List.cons_append, List.nil_append, readFlag_flag, num_terminal, readFin_val]

end

/-- Settles O39: holds take the value where it is a change, and a terminal is enabled or disabled with its station anew. -/
theorem dispatchHoldAndTerminalSet : Obligations.DispatchHoldAndTerminalSet := by
  refine ⟨availableIn_of_group (g := .run) rfl, availableIn_of_group (g := .configure) rfl, ?hold, ?flags, ?terminal⟩
  case hold =>
    intro f s t b v hf hargs
    refine ⟨fun k hb => ⟨fun hv => ?already, fun hv => ?set⟩, fun hb => ⟨terminal_setEveryHold v t, ?all⟩,
      fun hge hall => exec_refused rfl hf (hargs ▸ dispatchHoldReply_of_target hge hall)⟩
    case already =>
      subst hb
      exact exec_refused rfl hf (hargs ▸ dispatchHoldReply_terminal.trans (if_pos hv))
    case set =>
      subst hb
      rw [← setHold_singleton]
      exact exec_answered rfl hf (hargs ▸ dispatchHoldReply_terminal.trans (if_neg hv))
    case all =>
      subst hb
      exact exec_answered rfl hf (hargs ▸ dispatchHoldReply_all.trans (setAllHolds_eq v t))
  case flags =>
    intro f s t target flag hfalse htrue
    exact ⟨fun hf hargs => exec_refused rfl hf (hargs ▸ dispatchHoldReply_of_action hfalse htrue),
      fun k hf hargs => exec_refused rfl hf (hargs ▸ terminalSetReply_of_flag hfalse htrue)⟩
  case terminal =>
    intro f s t k en hf hargs unheard
    have hreply : ownerReply .terminalSet f.args t = _ := hargs ▸ terminalSetReply_be
    refine ⟨fun hen => exec_refused rfl hf (hreply.trans (if_pos hen)), ?_, ?_⟩
    · rintro hen rfl
      have hdisable := hreply.trans (if_neg (by simp [hen]))
      refine ⟨fun hb => exec_refused rfl hf (hdisable.trans (if_pos ?_)), fun hb => exec_answered rfl hf (hdisable.trans ?_)⟩
      · simpa [Option.isSome_iff_ne_none] using hb
      · rw [hb]
        rfl
    · rintro hen rfl
      exact exec_answered rfl hf ((hreply.trans (if_neg (by simp [hen]))).trans rfl)

end Sys2Proof.Machine
end

section
/-! SUPPORT. The statements about terminal reports (R62 to R67) and the dispatch pass (R58 to R60): the row of a good answer, what each
report does by the terminal's state, the sorted lists a pass goes through, and what a pass leaves alone. -/

namespace Sys2Proof.Machine

/-! ## The row of a report -/

/-- R204: a lane carries the reports of its own stations alone. -/
theorem lane_of_readReport {lane : Lane} {kind : Byte} {contents : List Byte} {rep : Report}
    (h : readReport lane kind contents = some rep) : rep.lane = lane := by
  unfold readReport at h
  split at h
  case h_4 | h_5 =>
    obtain ⟨-, heq⟩ := Option.ite_none_right_eq_some.1 h
    cases heq
    rfl
  case h_6 | h_7 =>
    cases h
    rfl
  case h_8 =>
    obtain ⟨b, -, rfl⟩ := Option.map_eq_some_iff.1 h
    rfl
  case h_9 => cases h
  all_goals
    split at h
    next =>
      cases h
      rfl
    next => cases h

theorem lane_of_judgeAnswer {st : StationId} {q : Byte} {received : List Byte} {rep : Report}
    (h : judgeAnswer st q received = some rep) : rep.lane = st.lane := by
  unfold judgeAnswer at h
  split at h
  next =>
    split at h
    next => exact lane_of_readReport h
    next => cases h
  next => cases h

/-- R165: the row of a report takes every good answer of its kind. -/
theorem exec_row (rep : Report) (received : List Byte) : ∃ ofRow : Report → Bool, ofRow rep = true ∧
    ∀ s, exec (rep.row received) s = .next (reportRow rep.lane ofRow received s) := by
  cases rep <;> exact ⟨_, rfl, fun _ => rfl⟩

/-- R165: a good answer from a station that is HEARD is taken by its owner, and the lane goes on. -/
theorem exec_row_of_answers {st : StationId} {rep : Report} {received : List Byte} {s : State} (h : Answers st rep received s) :
    exec (rep.row received) s = reported st.lane (takeReport st true rep (takeDelivery st s)) := by
  obtain ⟨ofRow, hrep, hexec⟩ := exec_row rep received
  rw [hexec, lane_of_judgeAnswer h.good, reportRow_taken h hrep]
  rfl

section
variable {s : State} {k : Fin 16} {o : OrderId} {x : Order} {tag : Tag} {place : Nat}

theorem boundOrder_of_state {st : TermState} (h : (s.terminal k).state ≠ st) : s.boundOrder k st = none := if_neg h

theorem boundOrder_of_bound {st : TermState} (h : (s.terminal k).state = st) (hb : (s.terminal k).bound = some o) :
    s.boundOrder k st = some o := (if_pos h).trans hb

/-! ## PICKED (R62) -/

theorem takePicked_of_state (h : (s.terminal k).state ≠ .granted) : takePicked k tag place s = refuse k .state s := by
  simp only [takePicked, boundOrder_of_state h]

section
variable (h : (s.terminal k).state = .granted) (hb : (s.terminal k).bound = some o) (hx : s.order? o = some x)
include h hb hx

theorem takePicked_of_mismatch (hbad : (s.pallet? x.pallet).map (·.tag) ≠ some tag ∨ place ≠ x.origin.code
    ∨ vacateClaim x.pallet x.origin s = none) : takePicked k tag place s = refuse k .pickMismatch s := by
  simp only [takePicked, boundOrder_of_bound h hb, hx]
  by_cases hreport : (s.pallet? x.pallet).map (·.tag) ≠ some tag ∨ place ≠ x.origin.code
  · exact if_pos hreport
  · have hvacate : vacateClaim x.pallet x.origin s = none := by
      rcases hbad with h1 | h1 | h1
      · exact absurd (.inl h1) hreport
      · exact absurd (.inr h1) hreport
      · exact h1
    rw [if_neg hreport, hvacate]

theorem takePicked_of_vacated {v : State} (htag : (s.pallet? x.pallet).map (·.tag) = some tag) (hplace : place = x.origin.code)
    (hv : vacateClaim x.pallet x.origin s = some v) : takePicked k tag place s = placeTerm k (.accept .picked none)
      (((pickClaim x.pallet o v).updOrder o fun y => { y with state := .carrying }).updTerminal k fun y =>
        { y with state := .carrying }) := by
  simp only [takePicked, boundOrder_of_bound h hb, hx, htag, hplace, ne_eq, not_true, or_self, if_false, hv]
  rfl

end

/-! ## DROPPED (R63, R64) -/

theorem takeDropped_of_state (h : (s.terminal k).state ≠ .carrying) : takeDropped k place s = refuse k .state s := by
  simp only [takeDropped, boundOrder_of_state h]

section
variable (h : (s.terminal k).state = .carrying) (hb : (s.terminal k).bound = some o) (hx : s.order? o = some x)
include h hb hx

theorem takeDropped_of_place (hplace : place ≠ x.dest.code) : takeDropped k place s = refuse k .dropMismatch s := by
  simp only [takeDropped, boundOrder_of_bound h hb, hx, if_pos hplace]

theorem takeDropped_of_held (hheld : s.outbound x.dest = true ∧ s.held x.pallet = true) :
    takeDropped k x.dest.code s = refuse k .held s := by
  simp [takeDropped, boundOrder_of_bound h hb, hx, hheld]

variable (hheld : ¬(s.outbound x.dest = true ∧ s.held x.pallet = true))
include hheld

theorem takeDropped_of_shut (hd : dropThrough x.dest s = none) : takeDropped k x.dest.code s = refuse k .doorShut s := by
  simp [takeDropped, boundOrder_of_bound h hb, hx, hheld, hd]

theorem takeDropped_of_uncommitted {v : State} (hd : dropThrough x.dest s = some v)
    (hw : commitClaim o x.pallet x.dest v = none) : takeDropped k x.dest.code s = refuse k .dropMismatch s := by
  simp [takeDropped, boundOrder_of_bound h hb, hx, hheld, hd, hw]

theorem takeDropped_of_committed {v w : State} (hd : dropThrough x.dest s = some v)
    (hw : commitClaim o x.pallet x.dest v = some w) : takeDropped k x.dest.code s = completeDrop k o x w := by
  simp [takeDropped, boundOrder_of_bound h hb, hx, hheld, hd, hw]

end

end

/-- Settles O40: the checks of PICKED and DROPPED in their order, then what an accepted report does. -/
theorem pickedAndDropped : Obligations.PickedAndDropped := by
  refine ⟨?picked, ?dropped⟩
  case picked =>
    intro k received s tag place ha u
    have hexec : exec (.picked received) s = reported .term (takePicked k tag place u) := exec_row_of_answers ha
    rw [hexec]
    exact ⟨fun h => congrArg _ (takePicked_of_state h), fun o x h hb hx => ⟨fun hbad => congrArg _ (takePicked_of_mismatch h hb hx hbad),
      fun v htag hplace hv => congrArg _ (takePicked_of_vacated h hb hx htag hplace hv)⟩⟩
  case dropped =>
    intro k received s place ha u
    have hexec : exec (.dropped received) s = reported .term (takeDropped k place u) := exec_row_of_answers ha
    rw [hexec]
    refine ⟨fun h => congrArg _ (takeDropped_of_state h), fun o x h hb hx =>
      ⟨fun hplace => congrArg _ (takeDropped_of_place h hb hx hplace), ?_⟩⟩
    rintro rfl held
    refine ⟨fun hheld => congrArg _ (takeDropped_of_held h hb hx hheld),
      fun hheld hd => congrArg _ (takeDropped_of_shut h hb hx hheld hd), fun v hheld hd =>
      ⟨fun hw => congrArg _ (takeDropped_of_uncommitted h hb hx hheld hd hw),
        fun w hw => congrArg _ (takeDropped_of_committed h hb hx hheld hd hw)⟩⟩

/-! ## ABANDON (R65) -/

section
variable {s : State} {k : Fin 16} {o : OrderId} {x : Order} {room : Nat}

theorem takeAbandon_of_state (h : (s.terminal k).state ≠ .carrying) : takeAbandon k room s = refuse k .state s := by
  simp only [takeAbandon, boundOrder_of_state h]

section
variable (h : (s.terminal k).state = .carrying) (hb : (s.terminal k).bound = some o) (hx : s.order? o = some x)
include h hb hx

theorem takeAbandon_of_no_room (hroom : 8 ≤ room ∨ ∃ r : Fin 8, room = r.1 ∧ s.kind r = .unused) :
    takeAbandon k room s = refuse k .place s := by
  simp only [takeAbandon, boundOrder_of_bound h hb, hx, abandonOrder_of_no_room _ hroom]

theorem takeAbandon_of_room {r : Fin 8} (hk : s.kind r ≠ .unused) : takeAbandon k r.1 s =
    dispatchPass (placeTerm k (.accept .abandon none) (termIdle k (finishOrder o .abandonedTerminal (leaveUseList x.routeDoor o
      (abandonClaim x.pallet o r (releaseClaim o x.dest (s.updFloor r (insertHandle x.pallet)))))))) := by
  simp only [takeAbandon, boundOrder_of_bound h hb, hx, abandonOrder_of_room _ hk]
  rfl

end

end

/-! ## SUBMIT (R66) -/

section
variable {s : State} {k : Fin 16} {tag : Tag}

theorem takeSubmit_of_refused {why : RefuseReason} (h : trySubmit k tag s = .error why) :
    takeSubmit k tag s = refuse k why s := by
  simp only [takeSubmit, h]

theorem takeSubmit_of_created {o : OrderId} {v : State} (h : trySubmit k tag s = .ok (o, v)) :
    takeSubmit k tag s = dispatchPass (placeTerm k (.accept .submit (some o)) v) := by
  simp only [takeSubmit, h]

theorem trySubmit_of_state (h : (s.terminal k).state ≠ .idle) : trySubmit k tag s = .error .state := if_pos h

section
variable (hidle : (s.terminal k).state = .idle)
include hidle

theorem trySubmit_of_strap (h : s.moc.strap = .hostOnly) : trySubmit k tag s = .error .notEnabled := by
  simp [trySubmit, hidle, h]

variable (hstrap : s.moc.strap = .terminal)
include hstrap

theorem trySubmit_of_mode (h : s.mode ≠ .run) : trySubmit k tag s = .error .mode := by
  simp [trySubmit, hidle, hstrap, h]

variable (hrun : s.mode = .run)
include hrun

theorem trySubmit_of_unknown (h : s.findTag tag = none) : trySubmit k tag s = .error .notFound := by
  simp [trySubmit, hidle, hstrap, hrun, h]

section
variable {h : Handle} {p : Pallet} (hf : s.findTag tag = some h) (hp : s.pallet? h = some p)
include hf hp

theorem trySubmit_of_ordered (hlive : p.liveOrder ≠ none) : trySubmit k tag s = .error .busy := by
  simp [trySubmit, hidle, hstrap, hrun, hf, hp, hlive]

variable (hlive : p.liveOrder = none)
include hlive

theorem trySubmit_of_place (hplace : s.submittable h p.place = false) : trySubmit k tag s = .error .place := by
  simp [trySubmit, hidle, hstrap, hrun, hf, hp, hlive, hplace]

variable (hplace : s.submittable h p.place = true)
include hplace

theorem trySubmit_of_full (hi : s.freeOrderEntry = none) : trySubmit k tag s = .error .tableFull := by
  simp [trySubmit, hidle, hstrap, hrun, hf, hp, hlive, hplace, hi]

variable {i : Nat} (hi : s.freeOrderEntry = some i)
include hi

/-- R66: any refusal of the reserve claim is DEST_FULL (log entry 32). -/
theorem trySubmit_of_unreserved {rc : ResultCode}
    (hc : createOrder i h p.place (.anySlot (s.cls p.cls).preferred) .normal s = .error rc) :
    trySubmit k tag s = .error .destFull := by
  simp [trySubmit, hidle, hstrap, hrun, hf, hp, hlive, hplace, hi, hc]

theorem trySubmit_of_created {o : OrderId} {q : Place} {v : State}
    (hc : createOrder i h p.place (.anySlot (s.cls p.cls).preferred) .normal s = .ok (o, q, v)) :
    trySubmit k tag s = .ok (o, v) := by
  simp [trySubmit, hidle, hstrap, hrun, hf, hp, hlive, hplace, hi, hc]

end

end

theorem submittable_iff (s : State) (h : Handle) (place : Place) : s.submittable h place = true ↔
    (∃ d, place = .lane d ∧ (s.stagingLane d).members.head? = some h) ∨ ∃ r, place = .floor r := by
  cases place <;> simp [State.submittable]

end

/-! ## READY (R67) -/

theorem takeReady_of_reachable {s : State} {k : Fin 16} (full : Bool) (h : (s.terminal k).state.reachable = true) :
    let v := s.updTerminal k fun y => { y with handsFull := full }
    takeReady k full s =
      if (s.terminal k).handsFull = true ∧ full = false ∧ (s.terminal k).state = .idle then dispatchPass v else v := by
  intro v
  simp only [takeReady, if_pos h, Bool.and_eq_true, Bool.not_eq_true', decide_eq_true_eq, and_assoc]
  rfl

/-- Settles O41: the checks of ABANDON and SUBMIT in their order with what an accepted report does, and what READY sets. -/
theorem abandonSubmitReady : Obligations.AbandonSubmitReady := by
  refine ⟨?abandon, ?submit, ?ready⟩
  case abandon =>
    intro k received s room ha u
    have hexec : exec (.abandon received) s = reported .term (takeAbandon k room u) := exec_row_of_answers ha
    rw [hexec]
    refine ⟨fun h => congrArg _ (takeAbandon_of_state h), fun o x h hb hx =>
      ⟨fun hroom => congrArg _ (takeAbandon_of_no_room h hb hx hroom), ?_⟩⟩
    rintro r rfl hk
    exact congrArg _ (takeAbandon_of_room h hb hx hk)
  case submit =>
    intro k received s tag ha u no
    have hexec : exec (.submit received) s = reported .term (takeSubmit k tag u) := exec_row_of_answers ha
    have refused {why : RefuseReason} (h : trySubmit k tag u = .error why) : no why :=
      hexec.trans (congrArg _ (takeSubmit_of_refused h))
    refine ⟨fun h => refused (trySubmit_of_state h), fun hidle => ⟨fun h => refused (trySubmit_of_strap hidle h),
      fun hstrap => ⟨fun h => refused (trySubmit_of_mode hidle hstrap h), fun hrun =>
        ⟨fun h => refused (trySubmit_of_unknown hidle hstrap hrun h), fun h p hf hp => ?_⟩⟩⟩⟩
    refine ⟨fun hlive => refused (trySubmit_of_ordered hidle hstrap hrun hf hp hlive), fun hlive => ?_⟩
    intro standsFree room
    have hfree : u.submittable h p.place = true ↔ standsFree := submittable_iff u h p.place
    exact ⟨fun n => refused (trySubmit_of_place hidle hstrap hrun hf hp hlive (Bool.eq_false_iff.2 (mt hfree.1 n))),
      fun y hi => refused (trySubmit_of_full hidle hstrap hrun hf hp hlive (hfree.2 y) hi), fun i y hi =>
      ⟨fun rc hc => refused (trySubmit_of_unreserved hidle hstrap hrun hf hp hlive (hfree.2 y) hi hc), fun o q v hc =>
        hexec.trans (congrArg _ (takeSubmit_of_created
          (trySubmit_of_created hidle hstrap hrun hf hp hlive (hfree.2 y) hi hc)))⟩⟩
  case ready =>
    intro k received s full ha u v h
    have hexec : exec (.readyReport received) s = reported .term (takeReady k full u) := exec_row_of_answers ha
    exact hexec.trans (congrArg _ (takeReady_of_reachable full h))

/-! ## Sorted lists -/

theorem pairwise_insertBy {α : Type} {before : α → α → Bool} {R : α → α → Prop} (hins : ∀ a b, before a b = true → R a b)
    (hskip : ∀ a b, before a b = false → R b a) (htrans : ∀ a b c, R a b → R b c → R a c) (x : α) {l : List α}
    (hl : l.Pairwise R) : (insertBy before x l).Pairwise R := by
  induction l with
  | nil => exact List.pairwise_singleton R x
  | cons y rest ih =>
    obtain ⟨hy, hrest⟩ := List.pairwise_cons.1 hl
    unfold insertBy
    split
    next hxy =>
      have hR := hins x y hxy
      exact List.pairwise_cons.2 ⟨fun z hz => (List.mem_cons.1 hz).elim (fun h => h ▸ hR) fun hz => htrans x y z hR (hy z hz), hl⟩
    next hxy =>
      refine List.pairwise_cons.2 ⟨fun z hz => ?_, ih hrest⟩
      rcases (mem_insertBy before x z rest).1 hz with rfl | hz
      · exact hskip z y (Bool.eq_false_iff.2 hxy)
      · exact hy z hz

theorem pairwise_sortBy {α : Type} {before : α → α → Bool} {R : α → α → Prop} (hins : ∀ a b, before b a = false → R a b)
    (hskip : ∀ a b, before b a = true → R b a) (htrans : ∀ a b c, R a b → R b c → R a c) (l : List α) :
    (sortBy before l).Pairwise R := by
  induction l with
  | nil => exact List.Pairwise.nil
  | cons x rest ih =>
    exact pairwise_insertBy (fun a b h => hins a b (by simpa using h)) (fun a b h => hskip a b (by simpa using h)) htrans x ih

theorem perm_insertBy {α : Type} (before : α → α → Bool) (x : α) (l : List α) : (insertBy before x l).Perm (x :: l) := by
  induction l with
  | nil => exact List.Perm.refl _
  | cons y rest ih =>
    unfold insertBy
    split
    next => exact List.Perm.refl _
    next => exact (ih.cons y).trans (List.Perm.swap x y rest)

theorem perm_sortBy {α : Type} (before : α → α → Bool) (l : List α) : (sortBy before l).Perm l := by
  induction l with
  | nil => exact List.Perm.refl _
  | cons x rest ih => exact (perm_insertBy _ x _).trans (ih.cons x)

/-! ## Orders and waiting terminals in their order (R49, R59) -/

theorem pairwise_orders (s : State) : s.orders.Pairwise fun a b => a.2.seqNo ≤ b.2.seqNo := by
  unfold State.orders
  refine pairwise_sortBy (R := fun a b : OrderId × Order => a.2.seqNo ≤ b.2.seqNo) (fun a b h => ?later) (fun a b h => ?earlier)
    (fun _ _ _ => Nat.le_trans) _
  case later => exact not_lt.1 (of_decide_eq_false h)
  case earlier => exact Nat.le_of_lt (of_decide_eq_true h)

theorem mem_orders_iff (s : State) (o : OrderId) (x : Order) : (o, x) ∈ s.orders ↔
    ∃ i e, (i, e) ∈ s.mds.entries ∧ e.rec? = some x ∧ o = { index := Fin.ofNat 4096 i, gen := e.gen } := by
  simp only [State.orders, mem_sortBy, List.mem_filterMap, Option.map_eq_some_iff, Prod.exists, Prod.mk.injEq]
  exact ⟨fun ⟨i, e, hmem, y, hy, ho, hyx⟩ => ⟨i, e, hmem, hyx ▸ hy, ho.symm⟩,
    fun ⟨i, e, hmem, hx, ho⟩ => ⟨i, e, hmem, x, hx, ho.symm, rfl⟩⟩

theorem waiting_iff (x : Terminal) : x.waiting = true ↔ x.state = .idle ∧ x.dispatchHold = false := by
  simp [Terminal.waiting]

theorem mem_waitingTerminals_iff (s : State) (k : Fin 16) :
    k ∈ s.waitingTerminals ↔ (s.terminal k).state = .idle ∧ (s.terminal k).dispatchHold = false := by
  simp [State.waitingTerminals, mem_sortBy, waiting_iff]

theorem nodup_waitingTerminals (s : State) : s.waitingTerminals.Nodup :=
  (perm_sortBy _ _).nodup_iff.2 ((List.nodup_finRange 16).filter _)

theorem idleBefore_iff (s : State) (a b : Fin 16) : idleBefore s a b = true ↔ (s.terminal a).idleSince < (s.terminal b).idleSince
    ∨ ((s.terminal a).idleSince = (s.terminal b).idleSince ∧ a < b) := by
  simp [idleBefore]

/-- R59: what the visiting order compares. -/
def idleKey (s : State) (k : Fin 16) : Nat ×ₗ Fin 16 := toLex ((s.terminal k).idleSince, k)

theorem idleKey_lt_iff (s : State) (a b : Fin 16) : idleKey s a < idleKey s b ↔ idleBefore s a b = true := by
  rw [idleBefore_iff]
  exact Prod.Lex.toLex_lt_toLex

theorem idleKey_injective (s : State) : Function.Injective (idleKey s) := fun _ _ h => (Prod.ext_iff.1 (toLex_inj.1 h)).2

/-- R59: the list is sorted by the key, and its terminals are distinct. -/
theorem pairwise_waitingTerminals (s : State) : s.waitingTerminals.Pairwise fun a b => idleBefore s a b = true := by
  have hsorted : s.waitingTerminals.Pairwise fun a b => idleKey s a ≤ idleKey s b := by
    unfold State.waitingTerminals
    refine pairwise_sortBy (R := fun a b => idleKey s a ≤ idleKey s b) (fun a b h => ?later) (fun a b h => ?earlier)
      (fun _ _ _ => le_trans) _
    case later => exact not_lt.1 fun hlt => Bool.eq_false_iff.1 h ((idleKey_lt_iff s b a).1 hlt)
    case earlier => exact ((idleKey_lt_iff s b a).2 h).le
  exact (hsorted.and (nodup_waitingTerminals s)).imp fun {a b} ⟨hle, hne⟩ =>
    (idleKey_lt_iff s a b).1 (hle.lt_of_ne ((idleKey_injective s).ne hne))

/-! ## The retry interval (R59) -/

theorem retryWanted_iff (s : State) : s.retryWanted = true ↔ s.mode = .run
    ∧ (∃ k, (s.terminal k).state = .idle ∧ (s.terminal k).dispatchHold = false) ∧ ∃ y ∈ s.orders, y.2.state = .queued := by
  simp [State.retryWanted, State.ordersIn, waiting_iff, and_assoc, List.filter_eq_nil_iff]

theorem syncRetry_of_wanted {s : State} (h : s.retryWanted = true) :
    syncRetry s = s.withMds { s.mds with retryDue := some (s.mds.retryDue.getD (s.moc.clock + 1)) } := by
  rw [syncRetry, if_pos h]
  rfl

theorem syncRetry_of_not_wanted {s : State} (h : s.retryWanted = false) :
    syncRetry s = s.withMds { s.mds with retryDue := none } := by
  rw [syncRetry, h]
  rfl

/-! ## Grants (R58, R60) -/

section
variable {s : State} {o : OrderId} {x : Order}

theorem takeable_iff (s : State) (x : Order) :
    s.takeable x = true ↔ ∀ d, x.origin = .lane d → (s.stagingLane d).members.head? = some x.pallet := by
  unfold State.takeable
  cases x.origin <;> simp

theorem routeOpen_iff (s : State) (x : Order) : s.routeOpen x = true ↔
    ∀ d, x.routeDoor = some d → (s.door d).state = .opened ∧ (s.door d).useList.length < 16 := by
  unfold State.routeOpen
  cases x.routeDoor with
  | none => simp
  | some d =>
    have hopen : ((s.door d).state = .opened && (s.door d).useList.length < Config.useListPlaces) = true ↔
        (s.door d).state = .opened ∧ (s.door d).useList.length < 16 :=
      Bool.and_eq_true_iff.trans (and_congr decide_eq_true_iff decide_eq_true_iff)
    simpa using hopen

theorem eligible_iff (hx : s.order? o = some x) : s.eligible o = true ↔ s.mode = .run ∧ x.state = .queued
    ∧ (∀ d, x.origin = .lane d → (s.stagingLane d).members.head? = some x.pallet)
    ∧ ∀ d, x.routeDoor = some d → (s.door d).state = .opened ∧ (s.door d).useList.length < 16 := by
  simp only [State.eligible, hx, Bool.and_eq_true, decide_eq_true_eq, takeable_iff, routeOpen_iff, and_assoc]

theorem useListEntry_of_open {d : Fin 24} (hopen : (s.door d).state = .opened) (hplace : (s.door d).useList.length < 16) :
    useListEntry d o s = some (s.updDoor d fun y => { y with useList := y.useList ++ [o] }) :=
  if_pos ⟨hopen, hplace⟩

theorem grantCmd_of_live {p : Pallet} (hp : s.pallet? x.pallet = some p) :
    grantCmd s o x = .grant o p.tag x.origin x.dest (actionFor x.origin) := by
  simp [grantCmd, hp]

/-- R60: an eligible order without a route door enters no use list. -/
theorem grantOrder_of_no_route {p : Pallet} (k : Fin 16) (hx : s.order? o = some x) (hp : s.pallet? x.pallet = some p)
    (hroute : x.routeDoor = none) : grantOrder o k s = placeTerm k (.grant o p.tag x.origin x.dest (actionFor x.origin))
      ((s.updOrder o fun y => { y with state := .granted, terminal := some k }).updTerminal k fun y =>
        { y with state := .granted, bound := some o, revokeDue := none }) := by
  simp only [grantOrder, hx, hroute, grantCmd_of_live hp]

/-- R60: an eligible order enters the use list of its route door. -/
theorem grantOrder_of_route {p : Pallet} {d : Fin 24} (k : Fin 16) (hx : s.order? o = some x) (hp : s.pallet? x.pallet = some p)
    (he : s.eligible o = true) (hroute : x.routeDoor = some d) :
    grantOrder o k s = placeTerm k (.grant o p.tag x.origin x.dest (actionFor x.origin))
      (((s.updDoor d fun y => { y with useList := y.useList ++ [o] }).updOrder o fun y =>
        { y with state := .granted, terminal := some k }).updTerminal k fun y =>
        { y with state := .granted, bound := some o, revokeDue := none }) := by
  obtain ⟨-, -, -, hopen⟩ := (eligible_iff hx).1 he
  obtain ⟨hstate, hplace⟩ := hopen d hroute
  simp only [grantOrder, hx, hroute, useListEntry_of_open hstate hplace, Option.getD_some, grantCmd_of_live hp]

end

section
variable {s : State} {k : Fin 16}

theorem visitTerminal_of_urgent {o : OrderId} (h : (s.queue .urgent).find? s.eligible = some o) :
    visitTerminal k s = grantOrder o k s := by
  simp only [visitTerminal, h]

theorem visitTerminal_of_full (h : (s.queue .urgent).find? s.eligible = none) (hfull : (s.terminal k).handsFull = true) :
    visitTerminal k s = s := by
  simp only [visitTerminal, h, if_pos hfull]

section
variable (h : (s.queue .urgent).find? s.eligible = none) (hfull : (s.terminal k).handsFull = false)
include h hfull

theorem visitTerminal_of_normal {o : OrderId} (hn : (s.queue .normal).find? s.eligible = some o) :
    visitTerminal k s = grantOrder o k s := by
  simp [visitTerminal, h, hfull, hn]

theorem visitTerminal_of_none (hn : (s.queue .normal).find? s.eligible = none) : visitTerminal k s = s := by
  simp [visitTerminal, h, hfull, hn]

end

end

/-! ## What a pass leaves unchanged -/

/-- The part of the state that a dispatch pass leaves alone: all but order and terminal records, use lists and command slots. -/
structure PassFrame where
  pdr : Pdr
  ctb : Ctb
  tsu : Tsu
  dfc : Dfc
  alt : Alt
  lkp : Lkp
  moc : Moc
  timeBase : Nat
  pending : List Instr
  finished : List OrderId
  holds : Vector RoomHold 8
  door : Fin 24 → Door
  lanes : Vector LaneRec 4
  station : StationId → Station

/-- The frame of a state, its use lists and command slots shown empty. -/
def State.passFrame (s : State) : PassFrame :=
  { pdr := s.pdr, ctb := s.ctb, tsu := s.tsu, dfc := s.dfc, alt := s.alt, lkp := s.lkp, moc := s.moc, timeBase := s.timeBase,
    pending := s.pending, finished := s.mds.finished, holds := s.dkc.holds, door := fun d => { s.door d with useList := [] },
    lanes := s.lpl.lanes, station := fun st => { s.station st with slot := none, slotSent := false } }

theorem passFrame_withMds (s : State) {b : Mds} (h : b.finished = s.mds.finished) : (s.withMds b).passFrame = s.passFrame := by
  unfold State.passFrame
  rw [withMds_mds, h]
  rfl

@[simp] theorem passFrame_updOrder (s : State) (o : OrderId) (f : Order → Order) : (s.updOrder o f).passFrame = s.passFrame :=
  passFrame_withMds s rfl

@[simp] theorem passFrame_updTerminal (s : State) (k : Fin 16) (f : Terminal → Terminal) :
    (s.updTerminal k f).passFrame = s.passFrame :=
  passFrame_withMds s rfl

@[simp] theorem passFrame_syncRetry (s : State) : (syncRetry s).passFrame = s.passFrame := passFrame_withMds s rfl

theorem passFrame_updUseList (s : State) (d : Fin 24) (f : List OrderId → List OrderId) :
    (s.updDoor d fun x => { x with useList := f x.useList }).passFrame = s.passFrame := by
  have hdoor : (fun e => { (s.updDoor d fun x => { x with useList := f x.useList }).door e with useList := [] }) =
      fun e => { s.door e with useList := [] } := by
    funext e
    rw [door_updDoor]
    split
    next h => rw [h]
    next => rfl
  unfold State.passFrame
  rw [hdoor]
  rfl

@[simp] theorem passFrame_placeCmd (st : StationId) (c : StationCmd) (s : State) : (placeCmd st c s).passFrame = s.passFrame := by
  have hstation : (fun u => { (placeCmd st c s).station u with slot := none, slotSent := false }) =
      fun u => { s.station u with slot := none, slotSent := false } := by
    funext u
    rw [placeCmd, station_updStation]
    split
    next h => rw [h]
    next => rfl
  unfold State.passFrame
  rw [hstation]
  rfl

@[simp] theorem passFrame_placeTerm (k : Fin 16) (c : TermCmd) (s : State) : (placeTerm k c s).passFrame = s.passFrame :=
  passFrame_placeCmd _ _ s

@[simp] theorem passFrame_useListEntry (d : Fin 24) (o : OrderId) (s : State) :
    ((useListEntry d o s).getD s).passFrame = s.passFrame := by
  unfold useListEntry
  split
  next => exact passFrame_updUseList s d (· ++ [o])
  next => rfl

@[simp] theorem passFrame_grantOrder (o : OrderId) (k : Fin 16) (s : State) : (grantOrder o k s).passFrame = s.passFrame := by
  unfold grantOrder
  split
  next => rfl
  next x _ => cases x.routeDoor <;> simp

@[simp] theorem passFrame_visitTerminal (k : Fin 16) (s : State) : (visitTerminal k s).passFrame = s.passFrame := by
  unfold visitTerminal
  split
  next => exact passFrame_grantOrder _ k s
  next =>
    split
    next => rfl
    next =>
      split
      next => exact passFrame_grantOrder _ k s
      next => rfl

@[simp] theorem passFrame_dispatchPass (s : State) : (dispatchPass s).passFrame = s.passFrame := by
  unfold dispatchPass
  split
  next => exact (passFrame_syncRetry _).trans (frame_forEach State.passFrame visitTerminal passFrame_visitTerminal _ s)
  next => rfl

/-! ## The statement of the pass -/

theorem retryOver_of_due {s : State} {d : Time} (hdue : s.mds.retryDue = some d) (hd : d ≤ s.moc.clock) : s.retryOver = true := by
  simp only [State.retryOver, hdue, Option.any_some]
  exact decide_eq_true hd

theorem retryOver_of_not_due {s : State} (h : ∀ d, s.mds.retryDue = some d → s.moc.clock < d) : s.retryOver = false := by
  unfold State.retryOver
  cases hdue : s.mds.retryDue with
  | none => rfl
  | some d => exact decide_eq_false (Nat.not_le.2 (h d hdue))

/-- Settles O42: whom a pass visits, in which order, what each is granted, and what the pass and its retry leave alone. -/
theorem dispatchPassVisitsWaitingTerminals : Obligations.DispatchPassVisitsWaitingTerminals := by
  refine ⟨fun s h => if_neg h, fun s h => if_pos h, ?retry, fun s o x hx => eligible_iff hx, pairwise_orders, mem_orders_iff, ?queue,
    mem_waitingTerminals_iff, ?order, ?visit, ?grant, ?frame, ?due, ?early⟩
  case retry =>
    intro s runs
    have hruns : s.retryWanted = true ↔ runs := retryWanted_iff s
    exact ⟨fun h => syncRetry_of_wanted (hruns.2 h), fun h => syncRetry_of_not_wanted (Bool.eq_false_iff.2 (mt hruns.1 h)), rfl⟩
  case queue =>
    intro s p
    exact congrArg _ (List.filter_congr fun y _ => by simp)
  case order =>
    intro s
    exact (pairwise_waitingTerminals s).imp fun {a b} h => (idleBefore_iff s a b).1 h
  case visit =>
    intro s k
    exact ⟨fun o => visitTerminal_of_urgent, visitTerminal_of_full,
      fun h hfull => ⟨fun o => visitTerminal_of_normal h hfull, visitTerminal_of_none h hfull⟩⟩
  case grant =>
    intro s o x p k hx hp he s1
    cases hroute : x.routeDoor with
    | none =>
      have hs1 : s1 = s := by simp only [s1, hroute]
      rw [hs1]
      exact grantOrder_of_no_route k hx hp hroute
    | some d =>
      have hs1 : s1 = s.updDoor d fun y => { y with useList := y.useList ++ [o] } := by simp only [s1, hroute]
      rw [hs1]
      exact grantOrder_of_route k hx hp he hroute
  case frame =>
    intro s u
    have h : u.passFrame = s.passFrame := passFrame_dispatchPass s
    exact ⟨congrArg PassFrame.pdr h, congrArg PassFrame.ctb h, congrArg PassFrame.tsu h, congrArg PassFrame.dfc h,
      congrArg PassFrame.alt h, congrArg PassFrame.lkp h, congrArg PassFrame.moc h, congrArg PassFrame.timeBase h,
      congrArg PassFrame.pending h, congrArg PassFrame.holds h, congrArg PassFrame.finished h,
      fun d => congrFun (congrArg PassFrame.door h) d, fun st => congrFun (congrArg PassFrame.station h) st⟩
  case due =>
    intro s d hdue hd
    exact congrArg Host.Outcome.next (if_pos (retryOver_of_due hdue hd))
  case early =>
    intro s h
    exact congrArg Host.Outcome.next (if_neg (Bool.eq_false_iff.1 (retryOver_of_not_due h)))

end Sys2Proof.Machine
end

section
/-! SUPPORT. The statement about the plant lanes (R158, R160, R162 to R164): rounds, missed polls, first answers, and what the owners
do at a loss and a rehearing (R72, R93, R105, R138, R139). -/

namespace Sys2Proof.Machine

/-! ## Rounds (R158, R160) -/

section
variable {s : State} {l : Lane}

theorem roundOver_iff (s : State) (l : Lane) :
    s.roundOver l = true ↔ (s.laneRec l).polling = .polled ∧ (s.laneRec l).roundDue ≤ s.timeBase := by
  simp [State.roundOver]

theorem exec_laneRound_of_due (hp : (s.laneRec l).polling = .polled) (hd : (s.laneRec l).roundDue ≤ s.timeBase) :
    exec (.laneRound l) s = .next (settle (roundExpiry l s)) :=
  congrArg Host.Outcome.next (if_pos ((roundOver_iff s l).2 ⟨hp, hd⟩))

theorem exec_laneRound_of_not_due (h : ¬((s.laneRec l).polling = .polled ∧ (s.laneRec l).roundDue ≤ s.timeBase)) :
    exec (.laneRound l) s = .next s :=
  congrArg Host.Outcome.next (if_neg (mt (roundOver_iff s l).1 h))

theorem roundExpiry_of_idle (h : (s.laneRec l).position = none) :
    roundExpiry l s = beginRound l (s.updLane l fun y => { y with roundDue := y.roundDue + pollPeriod l }) := by
  simp [roundExpiry, h]

/-- R160: a round that falls due while one runs is owed. -/
theorem roundExpiry_of_running (h : (s.laneRec l).position ≠ none) : roundExpiry l s =
    (s.updLane l fun y => { y with roundDue := y.roundDue + pollPeriod l }).updLane l fun y => { y with owed := y.owed + 1 } := by
  simp [roundExpiry, Option.isSome_iff_ne_none, h]

theorem mem_laneStations_iff (st : StationId) (l : Lane) : st ∈ laneStations l ↔ st.lane = l := by
  cases st <;> cases l <;> simp [laneStations, StationId.lane]

theorem mem_configuredStations_iff (s : State) (l : Lane) (st : StationId) :
    st ∈ s.configuredStations l ↔ st.lane = l ∧ s.configured st = true := by
  rw [State.configuredStations, List.mem_filter, mem_laneStations_iff]

/-- R158: a lane's stations stand in ascending address. -/
theorem pairwise_laneStations (l : Lane) : (laneStations l).Pairwise fun a b => a.address < b.address := by
  cases l <;> exact List.pairwise_map.2 (finRange_ascending _)

theorem nextPoll_of_none (h : (s.laneRec l).todo = []) : nextPoll l s = s.updLane l fun y => { y with position := none } := by
  simp only [nextPoll, h]

theorem nextPoll_of_some {st : StationId} {rest : List StationId} (h : (s.laneRec l).todo = st :: rest) :
    nextPoll l s = sendPoll l st rest s := by
  simp only [nextPoll, h]

/-- R160: when a poll has ended, an owed round begins where the present one is over. -/
theorem pollEnded_of_owed (h : ((nextPoll l s).laneRec l).position = none ∧ ((nextPoll l s).laneRec l).polling = .polled
    ∧ 0 < ((nextPoll l s).laneRec l).owed) :
    pollEnded l s = beginRound l ((nextPoll l s).updLane l fun y => { y with owed := y.owed - 1 }) := by
  obtain ⟨hposition, hpolling, howed⟩ := h
  simp [pollEnded, hposition, hpolling, howed]

theorem pollEnded_of_not_owed (h : ¬(((nextPoll l s).laneRec l).position = none ∧ ((nextPoll l s).laneRec l).polling = .polled
    ∧ 0 < ((nextPoll l s).laneRec l).owed)) : pollEnded l s = nextPoll l s := by
  rw [pollEnded]
  refine if_neg fun hdue => h ?_
  simpa [and_assoc] using hdue

end

/-! ## Missed polls and first answers (R163, R164) -/

section
variable {s : State} {l : Lane} {st : StationId} {received : List Byte}

section
variable (hpos : (s.laneRec l).position = some st)
include hpos

theorem judged_of_position : s.judged l received = some (st, judgeAnswer st (s.station st).seqNo received) := by
  rw [State.judged, hpos, Option.map_some]

theorem exec_missedPoll_of_missed (hj : judgeAnswer st (s.station st).seqNo received = none) :
    exec (.missedPoll l received) s = reported l (missPoll l st s) := by
  refine congrArg Host.Outcome.next ?_
  simp only [missedRow, judged_of_position hpos, hj]
  rfl

theorem exec_missedPoll_of_answer (hj : judgeAnswer st (s.station st).seqNo received ≠ none) :
    exec (.missedPoll l received) s = .next s := by
  obtain ⟨rep, hrep⟩ := Option.ne_none_iff_exists'.1 hj
  refine congrArg Host.Outcome.next ?_
  simp only [missedRow, judged_of_position hpos, hrep]

end

/-- R163: the missed count rises to at most 3. -/
def missCounted (st : StationId) (s : State) : State :=
  s.updStation st fun x => { x with missed := min 3 ((s.station st).missed + 1), slotSent := false }

theorem missPoll_of_kept (h : ¬((s.station st).link ≠ .lost
    ∧ ((s.laneRec l).polling = .rollCall ∨ min 3 ((s.station st).missed + 1) = 3))) : missPoll l st s = missCounted st s :=
  if_neg h

theorem missPoll_of_lost (h : (s.station st).link ≠ .lost
    ∧ ((s.laneRec l).polling = .rollCall ∨ min 3 ((s.station st).missed + 1) = 3)) :
    missPoll l st s = declareLost st (missCounted st s) :=
  if_pos h

/-- R163: in HOLDOVER and RETAIN a loss raises no alarm of LPL. -/
theorem declareLost_of_silent (h : s.mode = .holdover ∨ s.mode = .retain) :
    declareLost st s = ownerLost st (s.updStation st fun x => { x with link := .lost, missed := 3 }) :=
  if_pos h

theorem declareLost_of_alarmed (hh : s.mode ≠ .holdover) (hr : s.mode ≠ .retain) : declareLost st s =
    raiseAlarm (lossAlarm st).1 (lossAlarm st).2 none
      (ownerLost st (s.updStation st fun x => { x with link := .lost, missed := 3 })) :=
  if_neg (not_or.2 ⟨hh, hr⟩)

/-- R164: the answer of a station that is not HEARD makes it so before its report is taken. -/
theorem exec_row_of_first_answer {rep : Report} (hpos : (s.laneRec st.lane).position = some st)
    (hgood : judgeAnswer st (s.station st).seqNo received = some rep) (hlink : (s.station st).link ≠ .heard) :
    exec (rep.row received) s = reported st.lane (takeReport st false rep (heardAgain st (takeDelivery st s))) := by
  obtain ⟨ofRow, hrep, hexec⟩ := exec_row rep received
  rw [hexec, lane_of_judgeAnswer hgood]
  refine congrArg Host.Outcome.next ?_
  simp [reportRow, judged_of_position hpos, hgood, hrep, goodAnswer, hlink]

end

/-! ## What the owners do at a loss and at a rehearing (R72, R93, R105, R138, R139) -/

section
variable {d : Fin 24} {s : State}

theorem doorOffline_of_offline (h : (s.door d).state = .offline) : doorOffline d s = s := if_pos h

theorem doorOffline_of_not_offline (h : (s.door d).state ≠ .offline) : doorOffline d s =
    placeDoor d .stop (doorLeaveTo d .offline true (s.updDoor d fun x => { x with remembered := some (s.door d).state })) :=
  if_neg h

theorem door_updDoor_same (s : State) (d : Fin 24) (f : Door → Door) : (s.updDoor d f).door d = f (s.door d) :=
  (door_updDoor s d d f).trans (if_pos rfl)

theorem doorLeaveTo_of_not_open {st : DoorState} {notify : Bool} (h : (s.door d).state ≠ .opened) :
    doorLeaveTo d st notify s = doorEnter d st s :=
  if_neg h

/-- R89: a door that leaves OPEN departs, with its notice. -/
theorem doorLeaveTo_of_open {st : DoorState} (h : (s.door d).state = .opened) : doorLeaveTo d st true s =
    departureNotice (s.door d).useList (clearAlarm .doorOpenLong (.door d) ((doorEnter d st s).updDoor d (Door.departed s.now))) :=
  if_pos h

theorem doorOffline_of_closed (hoff : (s.door d).state ≠ .offline) (hopen : (s.door d).state ≠ .opened) : doorOffline d s =
    placeDoor d .stop (doorEnter d .offline (s.updDoor d fun x => { x with remembered := some (s.door d).state })) := by
  rw [doorOffline_of_not_offline hoff, doorLeaveTo_of_not_open]
  rwa [door_updDoor_same]

theorem doorOffline_of_open (hopen : (s.door d).state = .opened) : doorOffline d s =
    placeDoor d .stop (departureNotice (s.door d).useList (clearAlarm .doorOpenLong (.door d)
      ((doorEnter d .offline (s.updDoor d fun x => { x with remembered := some (s.door d).state })).updDoor d
        (Door.departed s.now)))) := by
  rw [doorOffline_of_not_offline (by simp [hopen]), doorLeaveTo_of_open (by rwa [door_updDoor_same]), door_updDoor_same]
  rfl

end

section
variable {p : Fin 32} {s : State}

theorem probe_updProbe_same (s : State) (p : Fin 32) (f : Probe → Probe) : (s.updProbe p f).probe p = f (s.probe p) :=
  (probe_updProbe s p p f).trans (if_pos rfl)

theorem updProbe_silence (h : (s.probe p).fitted = true) :
    s.updProbe p silence = s.updProbe p fun x => { x with status := .silent } :=
  congrArg (fun v => s.withTsu { s.tsu with probes := v }) (upd_congr s.tsu.probes p _ _ (if_pos h))

/-- R105, R106: a fitted probe that becomes SILENT has its alarm raised where that is a change. -/
theorem probeStatusAlarm_of_silence (h : (s.probe p).fitted = true) :
    probeStatusAlarm p (s.probe p).status (s.updProbe p silence) =
      let v := s.updProbe p fun x => { x with status := .silent }
      if (s.probe p).status = .silent then v else raiseAlarm .probeFault (.probe p) (some (.probeStatus .silent)) v := by
  simp only [probeStatusAlarm, updProbe_silence h, probe_updProbe_same, reduceCtorEq, if_false]

end

section
variable {e : Fin 12} {s : State}

theorem evap_updEvap_same (s : State) (e : Fin 12) (f : Evap → Evap) : (s.updEvap e f).evap e = f (s.evap e) :=
  (evap_updEvap s e e f).trans (if_pos rfl)

/-- R131: the record after a phase change. -/
theorem evap_enterPhase (e : Fin 12) (p : Phase) (deadline : Option Time) (s : State) :
    (enterPhase e p deadline s).evap e =
      { s.evap e with
        phase := p, phaseSince := s.now, deadline := deadline
        deferralDue := if p = .demanded || p = .allotted then (s.evap e).deferralDue else none } :=
  evap_updEvap_same s e _

/-- The allowance is given up after a phase change, in the room of the evaporator's settings. -/
theorem releaseAllowance_enterPhase (e : Fin 12) (p : Phase) (deadline : Option Time) (s : State) :
    releaseAllowance e (enterPhase e p deadline s) =
      holdWithdrawal (s.evap e).cfg.room e ((enterPhase e p deadline s).updEvap e fun x => { x with allowanceHeld := false }) := by
  rw [releaseAllowance, evap_enterPhase]

theorem controllerLost_of_kept (h : (s.evap e).phase = .idle ∨ (s.evap e).phase = .demanded ∨ (s.evap e).phase = .refreeze
    ∨ (s.evap e).phase = .fault) : controllerLost e s = s.updEvap e fun x => { x with lost := true } := by
  rcases h with h | h | h | h <;> simp only [controllerLost, h]

theorem controllerLost_of_running (h : (s.evap e).phase = .pumpdown ∨ (s.evap e).phase = .heat ∨ (s.evap e).phase = .drip) :
    controllerLost e s =
      raiseAlarm .defrostStuck (.evap e) none (enterPhase e .fault none (s.updEvap e fun x => { x with lost := true })) := by
  rcases h with h | h | h <;> simp only [controllerLost, h]

/-- R138: an ALLOTTED evaporator gives up its allowance and waits again. -/
theorem controllerLost_of_allotted (h : (s.evap e).phase = .allotted) : controllerLost e s =
    allowancePass (startDeferral e ((holdWithdrawal (s.evap e).cfg.room e
      ((enterPhase e .demanded none (s.updEvap e fun x => { x with lost := true })).updEvap e fun x =>
        { x with allowanceHeld := false })).updEvap e fun x => { x with holdConfirmed := false })) := by
  simp only [controllerLost, h, releaseAllowance_enterPhase, evap_updEvap_same]

theorem controllerHeard_of_confirmed (h : (s.evap e).phase = .fault) (hc : (s.evap e).holdConfirmed = true) :
    controllerHeard e s =
      clearAlarm .defrostStuck (.evap e) (enterDrip e (s.updEvap e fun x => { x with lost := false })) := by
  simp only [controllerHeard, h, hc, if_true]

theorem controllerHeard_of_unconfirmed (h : (s.evap e).phase = .fault) (hc : (s.evap e).holdConfirmed = false) :
    controllerHeard e s = clearAlarm .defrostStuck (.evap e)
      (startDeferral e (enterPhase e .allotted none (s.updEvap e fun x => { x with lost := false }))) := by
  simp only [controllerHeard, h, hc, if_neg Bool.false_ne_true]

theorem controllerHeard_of_demanded (h : (s.evap e).phase = .demanded) :
    controllerHeard e s = allowancePass (s.updEvap e fun x => { x with lost := false }) := by
  simp only [controllerHeard, h]

theorem controllerHeard_of_kept (hf : (s.evap e).phase ≠ .fault) (hd : (s.evap e).phase ≠ .demanded) :
    controllerHeard e s = s.updEvap e fun x => { x with lost := false } := by
  unfold controllerHeard
  split
  next h => exact absurd h hf
  next h => exact absurd h hd
  next => rfl

end

section
variable {k : Fin 16} {s : State}

theorem terminalLost_of_unbound (h : (s.terminal k).state = .idle ∨ (s.terminal k).state = .carrying) :
    terminalLost k s = s.updTerminal k fun x => { x with state := .offline } := by
  rcases h with h | h <;> simp only [terminalLost, h]

theorem terminalLost_of_offline (h : (s.terminal k).state = .offline) : terminalLost k s = s := by
  simp only [terminalLost, h]

/-- R72: a lost terminal's GRANTED order goes back to its queue, with its REVOKE owed. -/
theorem terminalLost_of_granted {o : OrderId} {y : Order} (h : (s.terminal k).state = .granted)
    (hb : (s.terminal k).bound = some o) (hy : s.order? o = some y) : terminalLost k s =
      dispatchPass ((requeueOrder o (leaveUseList y.routeDoor o s)).updTerminal k fun x =>
        { x with state := .offline, bound := none, revokeDue := some o }) := by
  simp only [terminalLost, h, hb, hy, Option.bind_some]

theorem terminalHeard_of_heard (h : (s.terminal k).state ≠ .offline) : terminalHeard k s = s := if_pos h

section
variable (h : (s.terminal k).state = .offline)
include h

theorem terminalHeard_of_free (hb : (s.terminal k).bound = none) (hr : (s.terminal k).revokeDue = none) :
    terminalHeard k s = dispatchPass (termIdle k s) := by
  simp [terminalHeard, h, hb, hr]

theorem terminalHeard_of_owing {o : OrderId} (hb : (s.terminal k).bound = none) (hr : (s.terminal k).revokeDue = some o) :
    terminalHeard k s =
      dispatchPass (placeTerm k (.revoke o) ((termIdle k s).updTerminal k fun x => { x with revokeDue := none })) := by
  simp [terminalHeard, h, hb, hr]

theorem terminalHeard_of_carrying {o : OrderId} {y : Order} (hb : (s.terminal k).bound = some o) (hy : s.order? o = some y) :
    terminalHeard k s = placeTerm k (.divert o y.dest) (s.updTerminal k fun x => { x with state := .carrying }) := by
  simp [terminalHeard, h, hb, hy]

end

end

/-! ## The statement of the lanes -/

theorem lanes_begin_rounds (s : State) (l : Lane) : let x := s.laneRec l
    (x.polling = .polled → x.roundDue ≤ s.timeBase →
      let u := s.updLane l fun y => { y with roundDue := y.roundDue + pollPeriod l }
      (x.position = none → exec (.laneRound l) s = .next (settle (beginRound l u)))
      ∧ (x.position ≠ none → exec (.laneRound l) s = .next (settle (u.updLane l fun y => { y with owed := y.owed + 1 }))))
    ∧ (¬(x.polling = .polled ∧ x.roundDue ≤ s.timeBase) → exec (.laneRound l) s = .next s) := by
  refine ⟨fun hp hd => ⟨fun h => ?_, fun h => ?_⟩, exec_laneRound_of_not_due⟩
  · rw [exec_laneRound_of_due hp hd, roundExpiry_of_idle h]
  · rw [exec_laneRound_of_due hp hd, roundExpiry_of_running h]

theorem lanes_judge_missed_polls {s : State} {l : Lane} {st : StationId} {received : List Byte}
    (hpos : (s.laneRec l).position = some st) (hj : judgeAnswer st (s.station st).seqNo received = none) :
    let n := min 3 ((s.station st).missed + 1)
    let u := s.updStation st fun y => { y with missed := n, slotSent := false }
    let gone : Prop := (s.station st).link ≠ .lost ∧ ((s.laneRec l).polling = .rollCall ∨ n = 3)
    let v := ownerLost st (u.updStation st fun y => { y with link := .lost, missed := 3 })
    (¬gone → exec (.missedPoll l received) s = reported l u)
    ∧ (gone → s.mode = .holdover ∨ s.mode = .retain → exec (.missedPoll l received) s = reported l v)
    ∧ (gone → s.mode ≠ .holdover → s.mode ≠ .retain →
      exec (.missedPoll l received) s = reported l (raiseAlarm (lossAlarm st).1 (lossAlarm st).2 none v)) := by
  intro n u gone v
  rw [exec_missedPoll_of_missed hpos hj]
  refine ⟨fun h => congrArg _ (missPoll_of_kept h), fun h hm => congrArg _ ?_, fun h hh hr => congrArg _ ?_⟩
  · exact (missPoll_of_lost h).trans (declareLost_of_silent hm)
  · exact (missPoll_of_lost h).trans (declareLost_of_alarmed hh hr)

/-- R105: a lost hub makes its fitted probes SILENT one by one. -/
theorem hubLost_eq (r : Fin 8) (s : State) :
    let silent (u : State) (p : Fin 32) : State :=
      let v := u.updProbe p fun x => { x with status := .silent }
      if (u.probe p).fitted = false then u
      else if (u.probe p).status = .silent then v
      else raiseAlarm .probeFault (.probe p) (some (.probeStatus .silent)) v
    hubLost r s = evaluateRoom r (deriveRoom r ((roomProbes r).foldl silent s)) := by
  intro silent
  refine congrArg (fun f => evaluateRoom r (deriveRoom r ((roomProbes r).foldl f s))) ?_
  funext u p
  cases hf : (u.probe p).fitted with
  | false => simp [silent, hf]
  | true => simpa [silent, hf] using probeStatusAlarm_of_silence hf

/-- Settles O57: rounds, missed polls and first answers on the lanes, and what each owner does at a loss and a rehearing. -/
theorem lanesPollAndJudge : Obligations.LanesPollAndJudge := by
  refine ⟨lanes_begin_rounds, ?configured, fun s l => ⟨nextPoll_of_none, fun st rest => nextPoll_of_some⟩, ?missed,
    fun s st => rfl, ?first, fun l s => ⟨pollEnded_of_owed, pollEnded_of_not_owed⟩, ?doors, fun r s => ⟨hubLost_eq r s, rfl⟩, ?evaps,
    ?terminals⟩
  case configured =>
    intro s l
    exact ⟨mem_configuredStations_iff s l, (pairwise_laneStations l).sublist List.filter_sublist, rfl⟩
  case missed =>
    intro s l st received hpos x
    refine ⟨fun hj => ?_, exec_missedPoll_of_answer hpos⟩
    obtain ⟨kept, silent, alarmed⟩ := lanes_judge_missed_polls hpos hj
    refine ⟨kept, silent, fun h hh hr => (alarmed h hh hr).trans (congrArg _ ?_)⟩
    cases st <;> rfl
  case first =>
    intro s st rep received hpos hgood hlink u v
    refine (exec_row_of_first_answer hpos hgood hlink).trans (congrArg (fun w => reported st.lane (takeReport st false rep w)) ?_)
    cases st <;> rfl
  case doors =>
    intro d s x t
    exact ⟨doorOffline_of_offline, doorOffline_of_closed, doorOffline_of_open, rfl⟩
  case evaps =>
    intro e s x lost heard
    exact ⟨controllerLost_of_kept, controllerLost_of_running, controllerLost_of_allotted, controllerHeard_of_confirmed,
      controllerHeard_of_unconfirmed, controllerHeard_of_demanded, controllerHeard_of_kept⟩
  case terminals =>
    intro k s x off idle
    exact ⟨terminalLost_of_unbound, terminalLost_of_offline, fun o y => terminalLost_of_granted, terminalHeard_of_heard,
      fun h hb => ⟨terminalHeard_of_free h hb, fun o => terminalHeard_of_owing h hb⟩, fun o y h => terminalHeard_of_carrying h⟩

end Sys2Proof.Machine
end

section
/-! SUPPORT. The self-check and the warm restart: the checks by number, the events of CHECKING, the changes of SUPPLY, and the
records that a restart rewrites. O60 is settled from these. -/

namespace Sys2Proof.Machine

/-! ## The consistency checks (R190) -/

section
variable (s : State)

theorem checkPasses_kinds : s.checkPasses 1 = true ↔ ∃ r, s.kind r ≠ .unused := by
  simp [State.checkPasses]

theorem checkPasses_endings : s.checkPasses 2 = true ↔ ∀ r, s.firstSlot r ≤ s.pdr.ending.get r := by
  simp [State.checkPasses]

theorem checkPasses_doors : s.checkPasses 3 = true ↔ ∀ d, (s.door d).inService = true → s.kind (s.door d).room = .dock := by
  simp [State.checkPasses, imp_iff_not_or]

theorem evapsBound_eq (r : Fin 8) : s.evapsBound r =
    ((List.finRange 12).filter fun e => (s.evap e).cfg.configured ∧ (s.evap e).cfg.room = r).length :=
  congrArg List.length (List.filter_congr fun e _ => by simp [Evap.boundTo])

theorem checkPasses_evaps : s.checkPasses 4 = true ↔
    (∀ e, (s.evap e).cfg.configured = true → s.kind (s.evap e).cfg.room ≠ .unused) ∧ ∀ r, s.evapsBound r ≤ 3 := by
  simp [State.checkPasses, imp_iff_not_or]

theorem cold_iff (k : RoomKind) : k.cold = true ↔ k = .freezer ∨ k = .blast := by
  cases k <;> simp [RoomKind.cold]

theorem checkPasses_classes : s.checkPasses 5 = true ↔ ∀ c, (s.cls c).budget ≠ 0 →
    (s.kind (s.cls c).preferred = .freezer ∨ s.kind (s.cls c).preferred = .blast) ∧ 1 ≤ s.slotCount (s.cls c).preferred := by
  simp only [State.checkPasses, List.all_eq_true, List.mem_finRange, true_imp_iff, Bool.or_eq_true, Bool.and_eq_true,
    decide_eq_true_eq, cold_iff]
  exact forall_congr' fun c => or_iff_not_imp_left

theorem checkPasses_allowance : s.checkPasses 6 = true ↔ 1 ≤ s.dfc.allowance ∧ s.dfc.allowance ≤ 4 := by
  simp [State.checkPasses]

theorem firstFailure_eq_some_iff (n : Nat) : s.firstFailure = some n ↔
    1 ≤ n ∧ n ≤ 6 ∧ s.checkPasses n ≠ true ∧ ∀ k, 1 ≤ k → k < n → s.checkPasses k = true := by
  have hfind : s.firstFailure = (List.range' 1 6).find? fun n => !s.checkPasses n := rfl
  rw [hfind, List.find?_range'_eq_some]
  simp only [List.mem_range'_1, Bool.not_eq_true', Bool.not_not, ne_eq, Bool.not_eq_true]
  constructor
  · rintro ⟨hn, ⟨hlow, hhigh⟩, hbefore⟩
    exact ⟨hlow, by omega, hn, hbefore⟩
  · rintro ⟨hlow, hhigh, hn, hbefore⟩
    exact ⟨hn, ⟨hlow, by omega⟩, hbefore⟩

theorem firstFailure_eq_none_iff : s.firstFailure = none ↔ ∀ k, 1 ≤ k → k ≤ 6 → s.checkPasses k = true := by
  have hfind : s.firstFailure = (List.range' 1 6).find? fun n => !s.checkPasses n := rfl
  rw [hfind, List.find?_range'_eq_none]
  simp only [Bool.not_not]
  exact forall₂_congr fun k hk => ⟨fun h hle => h (by omega), fun h hlt => h (by omega)⟩

end

/-! ## The events of CHECKING (R190, R191) -/

section
variable {s : State} {order : List Block}

theorem exec_consistencyChecks_of_due (hm : s.moc.mode = .checking) (hdue : s.moc.checksDue = true) :
    exec (.consistencyChecks order) s = .next (settle (makeChecks order s)) :=
  congrArg Host.Outcome.next (if_pos ⟨hm, hdue⟩)

theorem makeChecks_of_failure {n : Nat} (h : s.firstFailure = some n) :
    makeChecks order s = enterMode .standby order (setSelfCheck (.configInvalid n) s) := by
  simp only [makeChecks, h]

theorem makeChecks_of_pass (h : s.firstFailure = none) : makeChecks order s =
    (s.withMoc { s.moc with checksDue := false, rollCallDue := some (s.now + Config.rollCallLimit) }).forEach allLanes
      startRollCall := by
  simp only [makeChecks, h]

theorem rollCallEnded_iff (s : State) (l : Lane) : s.rollCallEnded l = true ↔
    (s.laneRec l).polling = .rollCall ∧ (s.laneRec l).position = none ∧ (s.laneRec l).todo = [] := by
  simp [State.rollCallEnded, and_assoc]

theorem rollCallComplete_iff (s : State) : s.rollCallComplete = true ↔
    ∀ l, (s.laneRec l).polling = .rollCall ∧ (s.laneRec l).position = none ∧ (s.laneRec l).todo = [] := by
  have hall : ∀ l, l ∈ allLanes := fun l => by cases l <;> decide
  rw [State.rollCallComplete, List.all_eq_true]
  exact ⟨fun h l => (rollCallEnded_iff s l).1 (h l (hall l)), fun h l _ => (rollCallEnded_iff s l).2 (h l)⟩

theorem rollCallOver_of_due {d : Time} (hdue : s.moc.rollCallDue = some d) : s.rollCallOver = decide (d ≤ s.moc.clock) := by
  rw [State.rollCallOver, hdue]
  rfl

theorem rollCallOver_of_none (h : s.moc.rollCallDue = none) : s.rollCallOver = false := by
  rw [State.rollCallOver, h]
  rfl

end

/-! ## What a warm restart leaves (R187) -/

/-- R184 at a warm restart: the changes that set SUPPLY (log entry 17). -/
def supplyChanged (sf bl : Bool) (s : State) : Bool :=
  decide (s.moc.selfCheck = .inProgress ∨ (s.moc.supplyFail && !sf) ∨ (s.moc.batteryLow && !bl))

theorem supplyChanged_iff (sf bl : Bool) (s : State) : supplyChanged sf bl s = true ↔
    s.moc.selfCheck = .inProgress ∨ (s.moc.supplyFail = true ∧ sf = false) ∨ (s.moc.batteryLow = true ∧ bl = false) := by
  simp [supplyChanged]

/-- The changes of a restart write the SUPPLY cause alone. -/
theorem restartChanges_eq (sf bl : Bool) (s v : State) (hv : v.lkp.pendingCauses.supply = false) : restartChanges sf bl s v =
    v.withLkp { v.lkp with pendingCauses := { v.lkp.pendingCauses with supply := supplyChanged sf bl s } } := by
  unfold restartChanges supplyChanged
  split
  next h => simp only [h, decide_true]; rfl
  next h =>
    simp only [h, decide_false]
    rw [← hv]
    rfl

theorem restarts_iff (x : Door) : x.restarts = true ↔ x.inService = true ∧ x.state ≠ .offline := by
  simp [Door.restarts]

section
variable {now : Time} {x : Door}

theorem restarted_of_kept (h : ¬(x.inService = true ∧ x.state ≠ .offline)) : x.restarted now = x :=
  if_neg (mt (restarts_iff x).1 h)

theorem restarted_of_closed (h : x.inService = true ∧ x.state ≠ .offline) (hopen : x.state ≠ .opened) :
    x.restarted now = { x with state := .offline, remembered := some x.state } := by
  simp [Door.restarted, (restarts_iff x).2 h, hopen]

theorem restarted_of_open (h : x.inService = true ∧ x.state ≠ .offline) (hopen : x.state = .opened) : x.restarted now =
    Door.departed now { x with state := .offline, remembered := some .opened } := by
  simp [Door.restarted, (restarts_iff x).2 h, hopen]

end

section
variable {x : Terminal}

theorem terminalRestart_of_granted (h : x.state = .granted) :
    terminalRestart x = { x with state := .offline, bound := none, revokeDue := x.bound } := by
  simp only [terminalRestart, h]

theorem terminalRestart_of_idle_or_carrying (h : x.state = .idle ∨ x.state = .carrying) :
    terminalRestart x = { x with state := .offline } := by
  rcases h with h | h <;> simp only [terminalRestart, h]

theorem terminalRestart_of_kept (h : x.state = .disabled ∨ x.state = .offline) : terminalRestart x = x := by
  rcases h with h | h <;> simp only [terminalRestart, h]

end

/-- The phases that a warm restart ends (R144). -/
theorem phase_restarts_iff (p : Phase) : p.restarts = true ↔ p ∈ [Phase.allotted, .pumpdown, .heat, .drip] := by
  cases p <;> decide

/-! ## The statement of the self-check and the restart -/

theorem selfCheck_events (order : List Block) (s : State) : let m := s.moc
    (m.mode = .checking → m.checksDue = true →
      (∀ n, s.firstFailure = some n → exec (.consistencyChecks order) s =
        .next (settle (enterMode .standby order (setSelfCheck (.configInvalid n) s))))
      ∧ (s.firstFailure = none → exec (.consistencyChecks order) s =
        .next (settle ([Lane.door, .probe, .evap, .term].foldl (fun u l => startRollCall l u)
          (s.withMoc { m with checksDue := false, rollCallDue := some (m.clock + 10) })))))
    ∧ (¬(m.mode = .checking ∧ m.checksDue = true) → exec (.consistencyChecks order) s = .next s)
    ∧ (let ended : Prop := ∀ l, (s.laneRec l).polling = .rollCall ∧ (s.laneRec l).position = none ∧ (s.laneRec l).todo = []
      (m.mode = .checking → ended → exec (.rollCallCompletion order) s = .next (settle (rollCallPassed order s)))
      ∧ (¬(m.mode = .checking ∧ ended) → exec (.rollCallCompletion order) s = .next s))
    ∧ (∀ d, m.rollCallDue = some d → m.mode = .checking →
      (d ≤ m.clock → exec (.rollCallLimitExpiry order) s =
        .next (settle (enterMode .standby order (setSelfCheck .rollCallTimeout s))))
      ∧ (m.clock < d → exec (.rollCallLimitExpiry order) s = .next s))
    ∧ (m.rollCallDue = none ∨ m.mode ≠ .checking → exec (.rollCallLimitExpiry order) s = .next s) := by
  refine ⟨fun hm hdue => ⟨fun n h => ?_, fun h => ?_⟩, fun h => congrArg Host.Outcome.next (if_neg h),
    ⟨fun hm h => congrArg Host.Outcome.next (if_pos ⟨hm, (rollCallComplete_iff s).2 h⟩), fun h => congrArg Host.Outcome.next
      (if_neg fun ⟨hm, hc⟩ => h ⟨hm, (rollCallComplete_iff s).1 hc⟩)⟩,
    fun d hdue hm => ⟨fun hd => congrArg Host.Outcome.next (if_pos ⟨hm, ?_⟩), fun hd => congrArg Host.Outcome.next
      (if_neg fun ⟨_, h⟩ => ?_)⟩, fun h => congrArg Host.Outcome.next (if_neg fun ⟨hm, hover⟩ => ?_)⟩
  · rw [exec_consistencyChecks_of_due hm hdue, makeChecks_of_failure h]
  · rw [exec_consistencyChecks_of_due hm hdue, makeChecks_of_pass h]
    rfl
  · rw [rollCallOver_of_due hdue]
    exact decide_eq_true hd
  · rw [rollCallOver_of_due hdue, decide_eq_true_eq] at h
    exact absurd hd (Nat.not_lt.2 h)
  · rcases h with h | h
    · exact absurd hover (Bool.eq_false_iff.1 (rollCallOver_of_none h))
    · exact h hm

/-- R190: the checks by number, and the first that fails. -/
theorem selfCheck_checks (s : State) (passes : Nat → Prop) (hp : ∀ k, 1 ≤ k → k ≤ 6 → (s.checkPasses k = true ↔ passes k)) :
    (∀ n, s.firstFailure = some n ↔ 1 ≤ n ∧ n ≤ 6 ∧ ¬passes n ∧ ∀ k, 1 ≤ k → k < n → passes k)
    ∧ (s.firstFailure = none ↔ ∀ k, 1 ≤ k → k ≤ 6 → passes k) := by
  refine ⟨fun n => ?_, ?_⟩
  · rw [firstFailure_eq_some_iff]
    constructor
    · rintro ⟨hlow, hhigh, hn, hbefore⟩
      exact ⟨hlow, hhigh, mt (hp n hlow hhigh).2 hn, fun k hk hlt => (hp k hk (by omega)).1 (hbefore k hk hlt)⟩
    · rintro ⟨hlow, hhigh, hn, hbefore⟩
      exact ⟨hlow, hhigh, mt (hp n hlow hhigh).1 hn, fun k hk hlt => (hp k hk (by omega)).2 (hbefore k hk hlt)⟩
  · rw [firstFailure_eq_none_iff]
    exact forall₃_congr fun k hk hle => hp k hk hle

theorem restarts_and_opened (x : Door) :
    (x.restarts && decide (x.state = .opened)) = decide (x.inService = true ∧ x.state = .opened) := by
  by_cases h : x.state = .opened <;> simp [Door.restarts, h]

/-- Settles O60: the first failing check or the roll call, its end, and every record after a warm restart. -/
theorem selfCheckAndRestart : Obligations.SelfCheckAndRestart := by
  refine ⟨selfCheck_events, ?checks, ?restart⟩
  case checks =>
    intro s bound passes
    refine selfCheck_checks s passes fun k hlow hhigh => ?_
    interval_cases k
    · exact checkPasses_kinds s
    · exact checkPasses_endings s
    · exact checkPasses_doors s
    · refine (checkPasses_evaps s).trans (and_congr_right' (forall_congr' fun r => ?_))
      rw [evapsBound_eq]
    · exact checkPasses_classes s
    · exact checkPasses_allowance s
  case restart =>
    intro sf bl order s stopped
    obtain ⟨pdr, ctb, moc, -, entries, terminals, finished, nextSeq, retryDue, doors, holds, evaps, allowance, frostDue, probes, rooms,
      lastAccrual, accrualDue, alt, lkp⟩ := warmRestartBlocks_parts s
    have lanes := lanes_warmRestartBlocks s
    have stations := station_warmRestartBlocks s
    have hu := restartChanges_eq sf bl s (warmRestartBlocks s) (by rw [lkp])
    have hdoorSet : (fun d => (s.door d).restarts) = fun d => decide ((s.door d).inService = true ∧ (s.door d).state ≠ .offline) :=
      funext fun d => by simp [Door.restarts]
    have hevapSet : (fun e => (s.evap e).phase.restarts) = fun e => decide ((s.evap e).phase ∈ stopped) :=
      funext fun e => Bool.eq_iff_iff.2 ((phase_restarts_iff _).trans (decide_eq_true_iff).symm)
    have hset {n : Nat} (p : Fin n → Bool) : (List.finRange n).any p = true ↔ (List.finRange n).filter p ≠ [] := by
      simp [List.filter_eq_nil_iff]
    refine ⟨restartChanges sf bl s (warmRestartBlocks s), rfl, rfl, ?_⟩
    rw [hu]
    generalize warmRestartBlocks s = v at *
    refine ⟨pdr, ctb, moc, finished, nextSeq, retryDue, entries, fun k => ?terminal, fun d => ?door, holds, allowance, frostDue,
      fun e => ?evap, lastAccrual, accrualDue, fun p => ?probe, rooms, ?alt, fun l => ?lane, stations, congrArg Lkp.urgent lkp,
      congrArg Lkp.normal lkp, congrArg Lkp.answers lkp, congrArg Lkp.exchange lkp, congrArg Lkp.shifted lkp,
      congrArg Lkp.masks lkp, congrArg Lkp.discards lkp, congrArg Lkp.reasons lkp, ?doorSet, ?defrostSet,
      congrArg Lkp.roomSet lkp, congrArg (fun l => l.pendingCauses.link) lkp, congrArg (fun l => l.pendingCauses.alarm) lkp,
      ?doorCause, ?defrostCause, ?roomCause, supplyChanged_iff sf bl s⟩
    case terminal =>
      exact ⟨fun h => (terminals k).trans (terminalRestart_of_granted h),
        fun h => (terminals k).trans (terminalRestart_of_idle_or_carrying h),
        fun h => (terminals k).trans (terminalRestart_of_kept h)⟩
    case door =>
      exact ⟨fun h => (doors d).trans (restarted_of_kept h), fun h hopen => (doors d).trans (restarted_of_closed h hopen),
        fun h hopen => (doors d).trans (restarted_of_open h hopen)⟩
    case evap =>
      exact ⟨fun h => (evaps e).trans (if_pos ((phase_restarts_iff _).2 h)),
        fun h => (evaps e).trans (if_neg (mt (phase_restarts_iff _).1 h))⟩
    case probe =>
      refine (probes p).trans ?_
      unfold silence
      split <;> rfl
    case alt =>
      have hopen : (fun d => (s.door d).restarts && decide ((s.door d).state = .opened)) =
          fun d => decide ((s.door d).inService = true ∧ (s.door d).state = .opened) :=
        funext fun d => restarts_and_opened (s.door d)
      exact alt.trans (by rw [hopen])
    case lane =>
      have hlane : v.laneRec l = {} := by simp [State.laneRec, lanes]
      exact ⟨congrArg LaneRec.polling hlane, congrArg LaneRec.position hlane, congrArg LaneRec.todo hlane⟩
    case doorSet => exact (congrArg Lkp.doorSet lkp).trans (congrArg (fun q => (List.finRange 24).filter q) hdoorSet)
    case defrostSet => exact (congrArg Lkp.defrostSet lkp).trans (congrArg (fun q => (List.finRange 12).filter q) hevapSet)
    case doorCause =>
      change v.lkp.pendingCauses.door = true ↔ v.lkp.doorSet ≠ []
      rw [lkp]
      exact hset _
    case defrostCause =>
      change v.lkp.pendingCauses.defrost = true ↔ v.lkp.defrostSet ≠ []
      rw [lkp]
      exact hset _
    case roomCause =>
      change v.lkp.pendingCauses.room = true ↔ v.lkp.roomSet ≠ []
      rw [lkp]
      exact hset _

end Sys2Proof.Machine
end

section
/-! SUPPORT. The supply lines and the changes of mode (R184, R193 to R195): what the notices of the blocks leave alone, which lanes are
polled and which doors are OFFLINE after them, and each block's notice. O59 is settled from these. -/

namespace Sys2Proof.Machine

/-! ## What the notices of MDS, TSU and DFC leave alone (R184) -/

/-- The lanes, the SUPPLY cause, and which doors are in service in which state. -/
structure NoticeFrame where
  lanes : Vector LaneRec 4
  supply : Bool
  door : Fin 24 → Bool × DoorState

/-- The notice frame of a state. -/
def State.noticeFrame (s : State) : NoticeFrame :=
  { lanes := s.lpl.lanes, supply := s.lkp.pendingCauses.supply, door := fun d => ((s.door d).inService, (s.door d).state) }

theorem noticeFrame_ite {c : Prop} [Decidable c] {a b : State} :
    (if c then a else b).noticeFrame = if c then a.noticeFrame else b.noticeFrame := by
  split <;> rfl

theorem noticeFrame_forEach {α : Type} (f : α → State → State) (h : ∀ x s, (f x s).noticeFrame = s.noticeFrame) (xs : List α)
    (s : State) : (s.forEach xs f).noticeFrame = s.noticeFrame :=
  frame_forEach State.noticeFrame f h xs s

section
variable (s : State)

@[simp] theorem noticeFrame_withMds (b : Mds) : (s.withMds b).noticeFrame = s.noticeFrame := rfl
@[simp] theorem noticeFrame_withCtb (b : Ctb) : (s.withCtb b).noticeFrame = s.noticeFrame := rfl
@[simp] theorem noticeFrame_withPdr (b : Pdr) : (s.withPdr b).noticeFrame = s.noticeFrame := rfl
@[simp] theorem noticeFrame_withTsu (b : Tsu) : (s.withTsu b).noticeFrame = s.noticeFrame := rfl
@[simp] theorem noticeFrame_withDfc (b : Dfc) : (s.withDfc b).noticeFrame = s.noticeFrame := rfl
@[simp] theorem noticeFrame_updTerminal (k : Fin 16) (f : Terminal → Terminal) :
    (s.updTerminal k f).noticeFrame = s.noticeFrame := rfl
@[simp] theorem noticeFrame_updPallet (h : Handle) (f : Pallet → Pallet) : (s.updPallet h f).noticeFrame = s.noticeFrame := rfl
@[simp] theorem noticeFrame_updHold (r : Fin 8) (f : RoomHold → RoomHold) : (s.updHold r f).noticeFrame = s.noticeFrame := rfl
@[simp] theorem noticeFrame_updProbe (p : Fin 32) (f : Probe → Probe) : (s.updProbe p f).noticeFrame = s.noticeFrame := rfl
@[simp] theorem noticeFrame_updThermal (r : Fin 8) (f : RoomThermal → RoomThermal) :
    (s.updThermal r f).noticeFrame = s.noticeFrame := rfl
@[simp] theorem noticeFrame_updEvap (e : Fin 12) (f : Evap → Evap) : (s.updEvap e f).noticeFrame = s.noticeFrame := rfl
@[simp] theorem noticeFrame_updStation (st : StationId) (f : Station → Station) :
    (s.updStation st f).noticeFrame = s.noticeFrame := rfl
@[simp] theorem noticeFrame_raiseAlarm (k : AlarmKind) (sub : Subject) (v : Option AlarmValue) :
    (raiseAlarm k sub v s).noticeFrame = s.noticeFrame := rfl
@[simp] theorem noticeFrame_clearAlarm (k : AlarmKind) (sub : Subject) : (clearAlarm k sub s).noticeFrame = s.noticeFrame := rfl
@[simp] theorem noticeFrame_setRoomCause (r : Fin 8) : (setRoomCause r s).noticeFrame = s.noticeFrame := rfl
@[simp] theorem noticeFrame_setDefrostCause (e : Fin 12) : (setDefrostCause e s).noticeFrame = s.noticeFrame := rfl
@[simp] theorem noticeFrame_placeTerm (k : Fin 16) (c : TermCmd) : (placeTerm k c s).noticeFrame = s.noticeFrame := rfl
@[simp] theorem noticeFrame_placeEvap (e : Fin 12) (c : CtlPhase) : (placeEvap e c s).noticeFrame = s.noticeFrame := rfl

/-- A dispatch pass changes no lane, no cause, and of the doors the use lists alone. -/
theorem noticeFrame_of_passFrame {s u : State} (h : u.passFrame = s.passFrame) : u.noticeFrame = s.noticeFrame :=
  congrArg (fun x : PassFrame => NoticeFrame.mk x.lanes x.lkp.pendingCauses.supply fun d => ((x.door d).inService, (x.door d).state))
    h

@[simp] theorem noticeFrame_dispatchPass : (dispatchPass s).noticeFrame = s.noticeFrame :=
  noticeFrame_of_passFrame (passFrame_dispatchPass s)

/-! ### MDS -/

@[simp] theorem noticeFrame_leaveUseList (d : Option (Fin 24)) (o : OrderId) :
    (leaveUseList d o s).noticeFrame = s.noticeFrame := by
  cases d with
  | none => rfl
  | some d => exact noticeFrame_of_passFrame (passFrame_updUseList s d fun l => l.erase o)

@[simp] theorem noticeFrame_requeueOrder (o : OrderId) : (requeueOrder o s).noticeFrame = s.noticeFrame := rfl

@[simp] theorem noticeFrame_termIdle (k : Fin 16) : (termIdle k s).noticeFrame = s.noticeFrame := rfl

@[simp] theorem noticeFrame_requeueAndRevoke (o : OrderId) : (requeueAndRevoke o s).noticeFrame = s.noticeFrame := by
  unfold requeueAndRevoke
  (repeat' split) <;> simp

@[simp] theorem noticeFrame_requeueWithRevokeDue (o : OrderId) : (requeueWithRevokeDue o s).noticeFrame = s.noticeFrame := by
  unfold requeueWithRevokeDue
  (repeat' split) <;> simp

@[simp] theorem noticeFrame_departureNotice (removed : List OrderId) :
    (departureNotice removed s).noticeFrame = s.noticeFrame :=
  (noticeFrame_dispatchPass _).trans (noticeFrame_forEach _ (fun _ _ => by simp) _ s)

@[simp] theorem noticeFrame_mdsNotice (left entered : Mode) : (mdsNotice left entered s).noticeFrame = s.noticeFrame := by
  have hback : (if left = .run then s.forEach (s.ordersIn .granted)
      (if entered = .retain then requeueWithRevokeDue else requeueAndRevoke) else s).noticeFrame = s.noticeFrame := by
    split
    next => exact noticeFrame_forEach _ (fun o t => by split <;> simp) _ s
    next => rfl
  unfold mdsNotice
  cases entered
  case standby | retain =>
    unfold terminalsOffline
    exact (noticeFrame_forEach _ (fun k t => noticeFrame_updTerminal t k _) _ _).trans hback
  case run => exact (noticeFrame_dispatchPass _).trans hback
  case checking | holdover => exact hback

/-! ### TSU, with the gap rule's charges -/

@[simp] theorem noticeFrame_releaseClaim (o : OrderId) (p : Place) : (releaseClaim o p s).noticeFrame = s.noticeFrame := by
  unfold releaseClaim
  (repeat' split) <;> rfl

@[simp] theorem noticeFrame_unbindClaim (h : Handle) (o : OrderId) : (unbindClaim h o s).noticeFrame = s.noticeFrame := by
  unfold unbindClaim boundClaim
  (repeat' split) <;> simp

@[simp] theorem noticeFrame_finishOrder (o : OrderId) (out : Outcome) : (finishOrder o out s).noticeFrame = s.noticeFrame := rfl

@[simp] theorem noticeFrame_withdrawOrder (out : Outcome) (o : OrderId) : (withdrawOrder out o s).noticeFrame = s.noticeFrame := by
  unfold withdrawOrder
  (repeat' split) <;> simp

@[simp] theorem noticeFrame_holdNotice (h : Handle) : (holdNotice h s).noticeFrame = s.noticeFrame := by
  unfold holdNotice
  (repeat' split) <;> simp

@[simp] theorem noticeFrame_chargePallet (h : Handle) (n : Nat) : (chargePallet h n s).noticeFrame = s.noticeFrame := by
  unfold chargePallet budgetRule
  (repeat' split) <;> simp

@[simp] theorem noticeFrame_gapClaim (minutes : Nat) : (gapClaim minutes s).noticeFrame = s.noticeFrame :=
  noticeFrame_forEach _ (fun _ _ => by (repeat' split) <;> simp) _ s

@[simp] theorem noticeFrame_gapRule : (gapRule s).noticeFrame = s.noticeFrame := by
  unfold gapRule
  split
  next => rfl
  next => simp only [noticeFrame_ite, noticeFrame_withTsu, noticeFrame_gapClaim, ite_self]

@[simp] theorem noticeFrame_deriveRoom (r : Fin 8) : (deriveRoom r s).noticeFrame = s.noticeFrame := by
  unfold deriveRoom
  exact noticeFrame_forEach _ (fun p t => noticeFrame_updProbe t p _) _ s

@[simp] theorem noticeFrame_evaluationAlarms (r : Fin 8) (before after : RoomThermal) :
    (evaluationAlarms r before after s).noticeFrame = s.noticeFrame := by
  unfold evaluationAlarms
  (repeat' split) <;> rfl

@[simp] theorem noticeFrame_staleAlarm (r : Fin 8) : (staleAlarm r s).noticeFrame = s.noticeFrame := by
  unfold staleAlarm
  simp only
  (repeat' split) <;> rfl

@[simp] theorem noticeFrame_noteThermalChange (r : Fin 8) (before : ThermalState) :
    (noteThermalChange r before s).noticeFrame = s.noticeFrame := by
  unfold noteThermalChange
  split <;> rfl

@[simp] theorem noticeFrame_evaluateRoom (r : Fin 8) : (evaluateRoom r s).noticeFrame = s.noticeFrame := by
  unfold evaluateRoom
  simp [noticeFrame_ite]

@[simp] theorem noticeFrame_evaluateAll : (evaluateAll s).noticeFrame = s.noticeFrame :=
  noticeFrame_forEach _ (fun _ _ => by simp) _ s

@[simp] theorem noticeFrame_modeSilence : (modeSilence s).noticeFrame = s.noticeFrame :=
  noticeFrame_forEach _ (fun _ _ => by simp) _ _

@[simp] theorem noticeFrame_tsuNotice (left entered : Mode) : (tsuNotice left entered s).noticeFrame = s.noticeFrame := by
  cases entered <;> simp [tsuNotice, stopAccrual, noticeFrame_ite]

/-! ### DFC, with the room holds it claims -/

@[simp] theorem noticeFrame_enterPhase (e : Fin 12) (p : Phase) (deadline : Option Time) :
    (enterPhase e p deadline s).noticeFrame = s.noticeFrame := rfl

@[simp] theorem noticeFrame_enterPumpdown (e : Fin 12) : (enterPumpdown e s).noticeFrame = s.noticeFrame := rfl

@[simp] theorem noticeFrame_heldNotice (e : Fin 12) : (heldNotice e s).noticeFrame = s.noticeFrame := by
  unfold heldNotice
  split <;> simp

@[simp] theorem noticeFrame_becomeHeld (r : Fin 8) : (becomeHeld r s).noticeFrame = s.noticeFrame :=
  noticeFrame_forEach _ (fun _ _ => by simp) _ _

@[simp] theorem noticeFrame_reevaluateHold (r : Fin 8) : (reevaluateHold r s).noticeFrame = s.noticeFrame := by
  unfold reevaluateHold
  split <;> simp

@[simp] theorem noticeFrame_holdClaim (r : Fin 8) (e : Fin 12) (forced : Bool) :
    (holdClaim r e forced s).noticeFrame = s.noticeFrame := by
  simp [holdClaim, noticeFrame_ite]

@[simp] theorem noticeFrame_forcingClaim (r : Fin 8) (e : Fin 12) : (forcingClaim r e s).noticeFrame = s.noticeFrame := by
  simp [forcingClaim, noticeFrame_ite]

@[simp] theorem noticeFrame_holdWithdrawal (r : Fin 8) (e : Fin 12) : (holdWithdrawal r e s).noticeFrame = s.noticeFrame := by
  simp [holdWithdrawal, noticeFrame_ite]

@[simp] theorem noticeFrame_releaseAllowance (e : Fin 12) : (releaseAllowance e s).noticeFrame = s.noticeFrame := by
  simp [releaseAllowance]

@[simp] theorem noticeFrame_grantAllowance (e : Fin 12) : (grantAllowance e s).noticeFrame = s.noticeFrame := by
  simp [grantAllowance]

@[simp] theorem noticeFrame_allowanceLoop (fuel : Nat) : (allowanceLoop fuel s).noticeFrame = s.noticeFrame := by
  induction fuel generalizing s with
  | zero => rfl
  | succ fuel ih =>
    unfold allowanceLoop
    (repeat' split) <;> simp [ih]

@[simp] theorem noticeFrame_allowancePass : (allowancePass s).noticeFrame = s.noticeFrame := by
  simp [allowancePass, noticeFrame_ite]

@[simp] theorem noticeFrame_deferralExpires (e : Fin 12) : (deferralExpires e s).noticeFrame = s.noticeFrame := by
  simp [deferralExpires, noticeFrame_ite]

@[simp] theorem noticeFrame_startDeferral (e : Fin 12) : (startDeferral e s).noticeFrame = s.noticeFrame := by
  simp [startDeferral, noticeFrame_ite]

@[simp] theorem noticeFrame_abandonDefrost (e : Fin 12) : (abandonDefrost e s).noticeFrame = s.noticeFrame := by
  unfold abandonDefrost
  split <;> simp

@[simp] theorem noticeFrame_dfcNotice (entered : Mode) : (dfcNotice entered s).noticeFrame = s.noticeFrame := by
  cases entered <;> simp [dfcNotice, stopFrost, noticeFrame_forEach]

end

/-- What one turn of a loop brings about and every turn keeps, the loop brings about. -/
theorem forEach_establishes {α : Type} (P : State → Prop) (f : α → State → State) {x : α} (brings : ∀ s, P (f x s))
    (keeps : ∀ y s, P s → P (f y s)) (xs : List α) (s : State) (hx : x ∈ xs) : P (s.forEach xs f) := by
  obtain ⟨before, after, rfl⟩ := List.append_of_mem hx
  unfold State.forEach
  rw [List.foldl_append, List.foldl_cons]
  exact forEach_keeps P f keeps after _ (brings _)

/-! ## LPL's notice (R167) -/

theorem laneRec_updLane (s : State) (l m : Lane) (f : LaneRec → LaneRec) :
    (s.updLane l f).laneRec m = if m = l then f (s.laneRec l) else s.laneRec m := by
  have hslot : laneSlot m = laneSlot l ↔ m = l := by cases m <;> cases l <;> decide
  exact (upd_get _ _ _ _).trans (if_congr hslot rfl rfl)

/-- The polling state of a lane. -/
def State.pollingOf (s : State) (l : Lane) : Polling := (s.laneRec l).polling

theorem pollingOf_updLane (s : State) (l m : Lane) (f : LaneRec → LaneRec) :
    (s.updLane l f).pollingOf m = if m = l then (f (s.laneRec l)).polling else s.pollingOf m := by
  unfold State.pollingOf
  rw [laneRec_updLane]
  split <;> rfl

theorem pollingOf_updLane_of_kept (s : State) (l m : Lane) (f : LaneRec → LaneRec) (h : ∀ x, (f x).polling = x.polling) :
    (s.updLane l f).pollingOf m = s.pollingOf m := by
  rw [pollingOf_updLane, h]
  split
  next hm => rw [hm]; rfl
  next => rfl

@[simp] theorem pollingOf_updStation (s : State) (st : StationId) (f : Station → Station) (l : Lane) :
    (s.updStation st f).pollingOf l = s.pollingOf l := rfl

@[simp] theorem pollingOf_nextPoll (s : State) (l m : Lane) : (nextPoll l s).pollingOf m = s.pollingOf m := by
  unfold nextPoll sendPoll
  split <;> exact pollingOf_updLane_of_kept _ l m _ fun _ => rfl

@[simp] theorem pollingOf_beginRound (s : State) (l m : Lane) : (beginRound l s).pollingOf m = s.pollingOf m :=
  (pollingOf_nextPoll _ l m).trans (pollingOf_updLane_of_kept s l m _ fun _ => rfl)

@[simp] theorem pollingOf_startLane (s : State) (l m : Lane) :
    (startLane l s).pollingOf m = if m = l then .polled else s.pollingOf m := by
  unfold startLane
  split
  next h =>
    split
    next hm => rw [hm]; exact h
    next => rfl
  next => rw [pollingOf_beginRound, pollingOf_updLane]

@[simp] theorem pollingOf_stopLane (s : State) (l m : Lane) :
    (stopLane l s).pollingOf m = if m = l then .stopped else s.pollingOf m := by
  unfold stopLane
  split
  next h =>
    split
    next hm => rw [hm]; exact h
    next => rfl
  next => exact (frame_forEach (fun t => t.pollingOf m) _ (fun st t => pollingOf_updStation t st _ m) _ _).trans (pollingOf_updLane s l m _)

/-- R167: which lanes are polled after the notice. -/
theorem pollingOf_lplNotice (entered : Mode) (s : State) (l : Lane) : let p := (lplNotice entered s).pollingOf l
    (entered = .standby ∨ entered = .retain → p = .stopped) ∧ (entered = .run → p = .polled)
    ∧ (entered = .holdover → p = if l = .door ∨ l = .evap then .stopped else .polled) := by
  refine ⟨?_, ?_, ?_⟩
  · rintro (rfl | rfl) <;> cases l <;> simp [lplNotice, allLanes]
  · rintro rfl
    cases l <;> simp [lplNotice, allLanes]
  · rintro rfl
    cases l <;> simp [lplNotice]

/-- LPL's operations on its lanes leave the door records and the causes alone. -/
def State.besideLanes (s : State) : Dkc × Lkp := (s.dkc, s.lkp)

theorem besideLanes_updStation (s : State) (st : StationId) (f : Station → Station) :
    (s.updStation st f).besideLanes = s.besideLanes := rfl

theorem besideLanes_nextPoll (l : Lane) (s : State) : (nextPoll l s).besideLanes = s.besideLanes := by
  unfold nextPoll
  split <;> rfl

theorem besideLanes_startLane (l : Lane) (s : State) : (startLane l s).besideLanes = s.besideLanes := by
  unfold startLane
  split
  next => rfl
  next => exact besideLanes_nextPoll l _

theorem besideLanes_stopLane (l : Lane) (s : State) : (stopLane l s).besideLanes = s.besideLanes := by
  unfold stopLane
  split
  next => rfl
  next => exact frame_forEach State.besideLanes _ (fun st t => besideLanes_updStation t st _) _ _

theorem besideLanes_lplNotice (entered : Mode) (s : State) : (lplNotice entered s).besideLanes = s.besideLanes := by
  cases entered
  case standby | retain => exact frame_forEach State.besideLanes _ besideLanes_stopLane _ s
  case checking => rfl
  case run => exact frame_forEach State.besideLanes _ besideLanes_startLane _ s
  case holdover =>
    simp only [lplNotice, besideLanes_startLane, besideLanes_stopLane]

/-! ## DKC's notice (R93) -/

theorem noticeFrame_updDoor (s : State) (d : Fin 24) (f : Door → Door) : (s.updDoor d f).noticeFrame =
    { s.noticeFrame with
      door := fun e => if e = d then ((f (s.door d)).inService, (f (s.door d)).state) else s.noticeFrame.door e } := by
  have hdoor : (fun e => (((s.updDoor d f).door e).inService, ((s.updDoor d f).door e).state)) =
      fun e => if e = d then ((f (s.door d)).inService, (f (s.door d)).state) else ((s.door e).inService, (s.door e).state) := by
    funext e
    rw [door_updDoor]
    split <;> rfl
  unfold State.noticeFrame
  rw [hdoor]
  rfl

theorem noticeFrame_updDoor_of_kept (s : State) (d : Fin 24) (f : Door → Door)
    (h : ∀ x, ((f x).inService, (f x).state) = (x.inService, x.state)) : (s.updDoor d f).noticeFrame = s.noticeFrame := by
  have hdoor : (fun e => if e = d then ((f (s.door d)).inService, (f (s.door d)).state) else s.noticeFrame.door e) =
      s.noticeFrame.door := by
    funext e
    split
    next he => rw [h, he]; rfl
    next => rfl
  rw [noticeFrame_updDoor, hdoor]

theorem noticeFrame_doorEnter (d : Fin 24) (st : DoorState) (s : State) : (doorEnter d st s).noticeFrame =
    { s.noticeFrame with door := fun e => if e = d then ((s.door d).inService, st) else s.noticeFrame.door e } :=
  noticeFrame_updDoor s d fun x => { x with state := st, stateSince := s.now }

theorem noticeFrame_doorLeaveTo (d : Fin 24) (st : DoorState) (s : State) :
    (doorLeaveTo d st true s).noticeFrame = (doorEnter d st s).noticeFrame := by
  by_cases hopen : (s.door d).state = .opened
  · rw [doorLeaveTo_of_open hopen, noticeFrame_departureNotice, noticeFrame_clearAlarm]
    exact noticeFrame_updDoor_of_kept _ d _ fun _ => rfl
  · rw [doorLeaveTo_of_not_open hopen]

/-- R93: a door goes OFFLINE; lanes, causes and the other doors' states stay. -/
theorem noticeFrame_doorOffline (d : Fin 24) (s : State) : (doorOffline d s).noticeFrame =
    { s.noticeFrame with door := fun e => if e = d then ((s.door d).inService, .offline) else s.noticeFrame.door e } := by
  by_cases hoff : (s.door d).state = .offline
  · have hdoor : (fun e => if e = d then ((s.door d).inService, DoorState.offline) else s.noticeFrame.door e) =
        s.noticeFrame.door := by
      funext e
      split
      next he => rw [he, ← hoff]; rfl
      next => rfl
    rw [doorOffline_of_offline hoff, hdoor]
  · have hrem : (s.updDoor d fun x => { x with remembered := some (s.door d).state }).noticeFrame = s.noticeFrame :=
      noticeFrame_updDoor_of_kept s d _ fun _ => rfl
    rw [doorOffline_of_not_offline hoff]
    refine (noticeFrame_doorLeaveTo d .offline _).trans ?_
    rw [noticeFrame_doorEnter, hrem, door_updDoor_same]

/-- R93: one door at the notice. -/
def offlineInService (d : Fin 24) (s : State) : State := if (s.door d).inService then doorOffline d s else s

theorem dkcNotice_of_left {entered : Mode} (h : entered = .standby ∨ entered = .holdover ∨ entered = .retain) (s : State) :
    dkcNotice entered s = s.forEach (List.finRange 24) offlineInService := by
  rcases h with rfl | rfl | rfl <;> simp only [dkcNotice] <;> rfl

theorem lanes_supply_offlineInService (d : Fin 24) (s : State) :
    ((offlineInService d s).lpl.lanes, (offlineInService d s).lkp.pendingCauses.supply) =
      (s.lpl.lanes, s.lkp.pendingCauses.supply) := by
  unfold offlineInService
  split
  next => exact congrArg (fun x : NoticeFrame => (x.lanes, x.supply)) (noticeFrame_doorOffline d s)
  next => rfl

/-- A door that is in service is OFFLINE. -/
def State.offlineIfInService (s : State) (d : Fin 24) : Prop :=
  (s.noticeFrame.door d).1 = true → (s.noticeFrame.door d).2 = .offline

theorem offlineIfInService_turn (d : Fin 24) (s : State) : (offlineInService d s).offlineIfInService d := by
  unfold offlineInService
  split
  next =>
    unfold State.offlineIfInService
    rw [noticeFrame_doorOffline]
    simp
  next hout => exact fun hin => absurd hin hout

theorem offlineIfInService_turn_of_offline {d : Fin 24} (e : Fin 24) {s : State} (h : s.offlineIfInService d) :
    (offlineInService e s).offlineIfInService d := by
  by_cases hd : d = e
  · subst hd
    exact offlineIfInService_turn d s
  · unfold offlineInService
    split
    next =>
      unfold State.offlineIfInService
      rw [noticeFrame_doorOffline]
      simpa [hd, State.offlineIfInService] using h
    next => exact h

/-- R93: every door in service is OFFLINE after the notice. -/
theorem offlineIfInService_dkcNotice {entered : Mode} (h : entered = .standby ∨ entered = .holdover ∨ entered = .retain)
    (s : State) (d : Fin 24) : (dkcNotice entered s).offlineIfInService d := by
  rw [dkcNotice_of_left h]
  exact forEach_establishes (fun t => t.offlineIfInService d) _ (x := d) (offlineIfInService_turn d)
    (fun e t ht => offlineIfInService_turn_of_offline e ht) _ s (List.mem_finRange d)

theorem lanes_supply_dkcNotice (entered : Mode) (s : State) :
    ((dkcNotice entered s).lpl.lanes, (dkcNotice entered s).lkp.pendingCauses.supply) =
      (s.lpl.lanes, s.lkp.pendingCauses.supply) := by
  by_cases h : entered = .standby ∨ entered = .holdover ∨ entered = .retain
  · rw [dkcNotice_of_left h]
    exact frame_forEach (fun t => (t.lpl.lanes, t.lkp.pendingCauses.supply)) _ lanes_supply_offlineInService _ s
  · cases entered
    case checking | run => rfl
    case standby | holdover | retain => exact absurd h (by simp)

/-! ## A change of mode (R184) -/

theorem count_completeOrder (order : List Block) (b : Block) : (completeOrder order).count b = 1 := by
  have hnamed : (order.reverse.dedup.reverse).Nodup := List.nodup_reverse.2 (List.nodup_dedup _)
  have hall : Block.all.count b = 1 := by cases b <;> decide
  unfold completeOrder
  rw [List.count_append]
  by_cases h : b ∈ order.reverse.dedup.reverse
  · rw [List.count_eq_one_of_mem hnamed h, List.count_eq_zero.2 fun hmem => by simp_all]
  · rw [List.count_eq_zero.2 h, List.count_filter (by simpa using h), hall]

theorem mem_completeOrder (order : List Block) (b : Block) : b ∈ completeOrder order :=
  List.count_pos_iff.1 (by rw [count_completeOrder]; exact Nat.one_pos)

section
variable (left entered : Mode) (b : Block) (s : State)

@[simp] theorem fixed_blockNotice : (blockNotice left entered b s).fixed = s.fixed := by
  cases b <;> simp [blockNotice]

theorem stock_blockNotice (h : entered ≠ .run) : (blockNotice left entered b s).stock = s.stock := by
  cases b
  case mds => exact stock_mdsNotice left entered s
  case dkc => exact stock_dkcNotice entered s
  case tsu =>
    cases entered
    case run => exact absurd rfl h
    case standby | retain | checking | holdover => simp [blockNotice, tsuNotice]
  case dfc => exact stock_dfcNotice entered s
  case lpl => exact stock_lplNotice entered s

/-- No block's notice writes the SUPPLY cause. -/
theorem supply_blockNotice : (blockNotice left entered b s).lkp.pendingCauses.supply = s.lkp.pendingCauses.supply := by
  cases b
  case mds => exact congrArg NoticeFrame.supply (noticeFrame_mdsNotice s left entered)
  case dkc => exact congrArg Prod.snd (lanes_supply_dkcNotice entered s)
  case tsu => exact congrArg NoticeFrame.supply (noticeFrame_tsuNotice s left entered)
  case dfc => exact congrArg NoticeFrame.supply (noticeFrame_dfcNotice s entered)
  case lpl => exact congrArg (fun x : Dkc × Lkp => x.2.pendingCauses.supply) (besideLanes_lplNotice entered s)

/-- Only LPL's notice changes a lane. -/
theorem lanes_blockNotice (h : b ≠ .lpl) : (blockNotice left entered b s).lpl.lanes = s.lpl.lanes := by
  cases b
  case mds => exact congrArg NoticeFrame.lanes (noticeFrame_mdsNotice s left entered)
  case dkc => exact congrArg Prod.fst (lanes_supply_dkcNotice entered s)
  case tsu => exact congrArg NoticeFrame.lanes (noticeFrame_tsuNotice s left entered)
  case dfc => exact congrArg NoticeFrame.lanes (noticeFrame_dfcNotice s entered)
  case lpl => exact absurd rfl h

/-- Only DKC's notice changes a door's state. -/
theorem doors_blockNotice (h : b ≠ .dkc) : (blockNotice left entered b s).noticeFrame.door = s.noticeFrame.door := by
  cases b
  case mds => exact congrArg NoticeFrame.door (noticeFrame_mdsNotice s left entered)
  case dkc => exact absurd rfl h
  case tsu => exact congrArg NoticeFrame.door (noticeFrame_tsuNotice s left entered)
  case dfc => exact congrArg NoticeFrame.door (noticeFrame_dfcNotice s entered)
  case lpl =>
    exact congrArg (fun x : Dkc × Lkp => fun d => ((x.1.doors.get d).inService, (x.1.doors.get d).state))
      (besideLanes_lplNotice entered s)

end

section
variable (entered : Mode) (order : List Block) (s : State)

/-- The state in which the blocks take the notice of a mode change. -/
def beforeNotices : State := clearSupplyLoss entered (setCause .supply (s.withMoc (s.moc.enter entered)))

theorem enterMode_eq : enterMode entered order s =
    (beforeNotices entered s).forEach (completeOrder order) (blockNotice s.mode entered) := rfl

theorem moc_beforeNotices : (beforeNotices entered s).moc = s.moc.enter entered := by
  unfold beforeNotices clearSupplyLoss
  split <;> rfl

theorem supply_beforeNotices : (beforeNotices entered s).lkp.pendingCauses.supply = true := by
  unfold beforeNotices clearSupplyLoss
  split <;> rfl

theorem moc_enterMode : (enterMode entered order s).moc = s.moc.enter entered := by
  rw [enterMode_eq]
  exact (congrArg Fixed.moc (fixed_forEach _ (fixed_blockNotice _ _) _ _)).trans (moc_beforeNotices entered s)

theorem supply_enterMode : (enterMode entered order s).lkp.pendingCauses.supply = true := by
  rw [enterMode_eq]
  exact (frame_forEach (fun t => t.lkp.pendingCauses.supply) _ (supply_blockNotice _ _) _ _).trans (supply_beforeNotices entered s)

theorem stock_enterMode (h : entered ≠ .run) : (enterMode entered order s).stock = s.stock := by
  rw [enterMode_eq, stock_forEach fun b t => stock_blockNotice _ _ b t h, beforeNotices, clearSupplyLoss, if_neg h]
  rfl

/-- R167: which lanes are polled after the change. -/
theorem pollingOf_enterMode (l : Lane) : let p := (enterMode entered order s).pollingOf l
    (entered = .standby ∨ entered = .retain → p = .stopped) ∧ (entered = .run → p = .polled)
    ∧ (entered = .holdover → p = if l = .door ∨ l = .evap then .stopped else .polled) := by
  let P (t : State) : Prop := (entered = .standby ∨ entered = .retain → t.pollingOf l = .stopped)
    ∧ (entered = .run → t.pollingOf l = .polled)
    ∧ (entered = .holdover → t.pollingOf l = if l = .door ∨ l = .evap then .stopped else .polled)
  rw [enterMode_eq]
  refine forEach_establishes P _ (x := .lpl) (fun t => pollingOf_lplNotice entered t l) (fun b t ht => ?_) _ _
    (mem_completeOrder order .lpl)
  by_cases hb : b = .lpl
  · subst hb
    exact pollingOf_lplNotice entered t l
  · have hkept : (blockNotice s.mode entered b t).pollingOf l = t.pollingOf l :=
      congrArg (fun x : Vector LaneRec 4 => (x.get (laneSlot l)).polling) (lanes_blockNotice _ _ b t hb)
    unfold P
    rwa [hkept]

/-- R93: every door in service is OFFLINE after the change. -/
theorem offlineIfInService_enterMode (h : entered = .standby ∨ entered = .holdover ∨ entered = .retain) (d : Fin 24) :
    (enterMode entered order s).offlineIfInService d := by
  rw [enterMode_eq]
  refine forEach_establishes (fun t => t.offlineIfInService d) _ (x := .dkc)
    (fun t => offlineIfInService_dkcNotice h t d) (fun b t ht => ?_) _ _ (mem_completeOrder order .dkc)
  by_cases hb : b = .dkc
  · subst hb
    exact offlineIfInService_dkcNotice h t d
  · unfold State.offlineIfInService
    rwa [doors_blockNotice _ _ b t hb]

end

/-- The facts of a change of mode, gathered as O59 states them. -/
theorem enterMode_facts (entered : Mode) (order : List Block) (s : State) : let u := enterMode entered order s
    u.moc = { s.moc with
        mode := entered, modeSince := s.moc.clock, rollCallDue := none, checksDue := decide (entered = .checking) }
    ∧ u.lkp.pendingCauses.supply = true
    ∧ (entered ≠ .run → u.pdr = s.pdr ∧ u.ctb = s.ctb)
    ∧ (∀ l, let p := (u.laneRec l).polling
      (entered = .standby ∨ entered = .retain → p = .stopped) ∧ (entered = .run → p = .polled)
      ∧ (entered = .holdover → p = if l = .door ∨ l = .evap then .stopped else .polled))
    ∧ (∀ d, entered = .standby ∨ entered = .holdover ∨ entered = .retain → (u.door d).inService = true →
      (u.door d).state = .offline)
    ∧ (∀ b : Block, (completeOrder order).count b = 1)
    ∧ let v := (s.withMoc { s.moc with
          mode := entered, modeSince := s.moc.clock, rollCallDue := none, checksDue := decide (entered = .checking) }).withLkp
        { s.lkp with pendingCauses := { s.lkp.pendingCauses with supply := true } }
      u = (completeOrder order).foldl (fun w b => blockNotice s.mode entered b w)
        (if entered = .run then clearAlarm .supplyLoss .site v else v) :=
  ⟨moc_enterMode entered order s, supply_enterMode entered order s, fun h => Prod.mk.inj (stock_enterMode entered order s h),
    pollingOf_enterMode entered order s, fun d h => offlineIfInService_enterMode entered order s h d, count_completeOrder order, rfl⟩

/-! ## The supply lines (R193 to R195) -/

theorem remembered_eq (m : Mode) : m.remembered = if m = .checking then .standby else m := by
  cases m <;> rfl

section
variable {order : List Block} {s : State}

theorem enterRetain_of_retain (h : s.mode = .retain) : enterRetain order s = s := if_pos h

/-- R194: the entry to RETAIN from another mode. -/
theorem enterRetain_of_other (h : s.mode ≠ .retain) : enterRetain order s =
    enterMode .retain order ((raiseSupplyLoss (selfCheckSupply s)).withMoc
      { (raiseSupplyLoss (selfCheckSupply s)).moc with remembered := some (if s.mode = .checking then .standby else s.mode) }) := by
  rw [enterRetain, if_neg h, remembered_eq]

/-- The state with SUPPLY_FAIL recorded. -/
def supplyFailed (s : State) : State := recordLine (fun m => { m with supplyFail := true }) s

/-- The state with SUPPLY_FAIL's end recorded. -/
def supplyReturned (s : State) : State := recordLine (fun m => { m with supplyFail := false }) s

/-- The state with BATTERY_LOW recorded. -/
def batteryFell (s : State) : State := recordLine (fun m => { m with batteryLow := true }) s

theorem takeSupplyFail_of_low (hb : s.moc.batteryLow = true) : takeSupplyFail order s = enterRetain order (supplyFailed s) :=
  if_pos hb

section
variable (hb : s.moc.batteryLow = false)
include hb

theorem takeSupplyFail_of_run (hm : s.mode = .run) :
    takeSupplyFail order s = enterMode .holdover order (raiseSupplyLoss (supplyFailed s)) := by
  simp [takeSupplyFail, hb, hm, supplyFailed]

theorem takeSupplyFail_of_checking (hm : s.mode = .checking) :
    takeSupplyFail order s = enterMode .standby order (raiseSupplyLoss (setSelfCheck .supply (supplyFailed s))) := by
  have hself : selfCheckSupply (supplyFailed s) = setSelfCheck .supply (supplyFailed s) := if_pos hm
  rw [← hself]
  simp [takeSupplyFail, hb, hm, supplyFailed]

theorem takeSupplyFail_of_standby (hm : s.mode = .standby) : takeSupplyFail order s = raiseSupplyLoss (supplyFailed s) := by
  simp [takeSupplyFail, hb, hm, supplyFailed]

theorem takeSupplyFail_of_holdover (hm : s.mode = .holdover) : takeSupplyFail order s = supplyFailed s := by
  simp [takeSupplyFail, hb, hm, supplyFailed]

end

theorem takeSupplyFail_of_retain (hm : s.mode = .retain) : takeSupplyFail order s = supplyFailed s := by
  cases hb : s.moc.batteryLow with
  | true => rw [takeSupplyFail_of_low hb, enterRetain_of_retain]; exact hm
  | false => simp [takeSupplyFail, hb, hm, supplyFailed]

theorem takeBatteryLow_of_fail (h : s.moc.supplyFail = true) : takeBatteryLow order s = enterRetain order (batteryFell s) :=
  if_pos h

theorem takeBatteryLow_of_supplied (h : s.moc.supplyFail = false) : takeBatteryLow order s = batteryFell s :=
  if_neg (Bool.eq_false_iff.1 h)

theorem takeBatteryLow_of_retain (hm : s.mode = .retain) : takeBatteryLow order s = batteryFell s := by
  cases h : s.moc.supplyFail with
  | true => rw [takeBatteryLow_of_fail h, enterRetain_of_retain]; exact hm
  | false => exact takeBatteryLow_of_supplied h

theorem takeSupplyReturn_of_holdover (hm : s.mode = .holdover) :
    takeSupplyReturn order s = enterMode .run order (supplyReturned s) := by
  simp [takeSupplyReturn, hm, supplyReturned]

theorem takeSupplyReturn_of_remembered_run (hm : s.mode = .retain)
    (hr : s.moc.remembered = some .run ∨ s.moc.remembered = some .holdover) : takeSupplyReturn order s =
      enterMode .run order ((supplyReturned s).withMoc { (supplyReturned s).moc with remembered := none }) := by
  simp [takeSupplyReturn, hm, hr, supplyReturned]

theorem takeSupplyReturn_of_remembered_standby (hm : s.mode = .retain) (hr : s.moc.remembered = some .standby) :
    takeSupplyReturn order s =
      enterMode .standby order ((supplyReturned s).withMoc { (supplyReturned s).moc with remembered := none }) := by
  simp [takeSupplyReturn, hm, hr, supplyReturned]

theorem takeSupplyReturn_of_kept (hm : s.mode = .standby ∨ s.mode = .checking ∨ s.mode = .run) :
    takeSupplyReturn order s = supplyReturned s := by
  rcases hm with hm | hm | hm <;> simp [takeSupplyReturn, hm, supplyReturned]

theorem exec_supplyFailActive_of_new (h : s.moc.supplyFail = false) :
    exec (.supplyFailActive order) s = .next (settle (takeSupplyFail order s)) :=
  congrArg Host.Outcome.next (if_neg (Bool.eq_false_iff.1 h))

theorem exec_supplyFailInactive_of_new (h : s.moc.supplyFail = true) :
    exec (.supplyFailInactive order) s = .next (settle (takeSupplyReturn order s)) :=
  congrArg Host.Outcome.next (if_pos h)

theorem exec_batteryLowActive_of_new (h : s.moc.batteryLow = false) :
    exec (.batteryLowActive order) s = .next (settle (takeBatteryLow order s)) :=
  congrArg Host.Outcome.next (if_neg (Bool.eq_false_iff.1 h))

end

/-! ## The notices, block by block (R73, R105, R110, R115, R117, R142) -/

theorem reachable_iff (t : TermState) : t.reachable = true ↔ t = .idle ∨ t = .granted ∨ t = .carrying := by
  cases t <;> simp [TermState.reachable]

theorem terminalsOffline_eq (s : State) : terminalsOffline s = (List.finRange 16).foldl (fun (u : State) k => u.updTerminal k fun x =>
    if x.state = .idle ∨ x.state = .granted ∨ x.state = .carrying then { x with state := .offline } else x) s := by
  unfold terminalsOffline State.forEach
  simp only [reachable_iff]

/-- R73: the GRANTED orders that an exit from RUN takes back. -/
def grantedBack (left entered : Mode) (s : State) : State :=
  if left = .run then
    (s.ordersIn .granted).foldl (fun u o => if entered = .retain then requeueWithRevokeDue o u else requeueAndRevoke o u) s
  else s

theorem mdsNotice_eq (left entered : Mode) (s : State) : mdsNotice left entered s =
    match entered with
    | .retain | .standby => terminalsOffline (grantedBack left entered s)
    | .run => dispatchPass (grantedBack left entered s)
    | _ => grantedBack left entered s := by
  have hback : grantedBack left entered s = if left = .run then
      s.forEach (s.ordersIn .granted) (if entered = .retain then requeueWithRevokeDue else requeueAndRevoke) else s := by
    unfold grantedBack State.forEach
    by_cases h : entered = .retain <;> simp only [h, if_true, if_false]
  rw [hback]
  rfl

theorem hasChargeRoom_iff (s : State) (p : Pallet) : s.hasChargeRoom p = true ↔ s.roomsUsed p ≠ [] := by
  simp [State.hasChargeRoom]

theorem gapClaim_eq (minutes : Nat) (s : State) : gapClaim minutes s = s.liveHandles.foldl (fun (u : State) h =>
    match u.pallet? h with
    | some p => if u.roomsUsed p = [] then u else chargePallet h (minutes * (u.cls p.cls).excess) u
    | none => u) s := by
  unfold gapClaim State.forEach
  refine congrArg (List.foldl · s s.liveHandles) (funext fun u => funext fun h => ?_)
  cases hp : u.pallet? h with
  | none => simp only [hp]
  | some p => simp only [hp, hasChargeRoom_iff, ne_eq, ite_not]

section
variable {s : State}

theorem gapRule_of_ahead (h : s.moc.clock < s.tsu.lastAccrual) :
    gapRule s = s.withTsu { s.tsu with lastAccrual := s.moc.clock } :=
  if_pos h

theorem gapRule_of_short (h : s.tsu.lastAccrual ≤ s.moc.clock) (hm : (s.moc.clock - s.tsu.lastAccrual) / 60 = 0) :
    gapRule s = s :=
  (if_neg (Nat.not_lt.2 h)).trans (if_pos hm)

theorem gapRule_of_minutes (hm : 1 ≤ (s.moc.clock - s.tsu.lastAccrual) / 60) : gapRule s =
    (gapClaim ((s.moc.clock - s.tsu.lastAccrual) / 60) s).withTsu
      { (gapClaim ((s.moc.clock - s.tsu.lastAccrual) / 60) s).tsu with lastAccrual := s.moc.clock } := by
  have hpast : ¬s.moc.clock < s.tsu.lastAccrual := fun h => by
    rw [Nat.sub_eq_zero_of_le (Nat.le_of_lt h)] at hm
    exact absurd hm (by decide)
  exact (if_neg hpast).trans (if_neg (Nat.one_le_iff_ne_zero.1 hm))

/-- R70, R73: a GRANTED order is taken out of its use list and back to its queue, and its terminal is IDLE again. -/
def takenBack (o : OrderId) (x : Order) (k : Fin 16) (s : State) : State :=
  ((leaveUseList x.routeDoor o s).updOrder o fun y => { y with state := .queued, terminal := none }).updTerminal k
    fun y => { y with state := .idle, idleSince := s.moc.clock, bound := none }

theorem takenBack_eq (o : OrderId) (x : Order) (k : Fin 16) (s : State) :
    termIdle k (requeueOrder o (leaveUseList x.routeDoor o s)) = takenBack o x k s := by
  have hnow : (requeueOrder o (leaveUseList x.routeDoor o s)).now = s.moc.clock :=
    congrArg (fun f : Fixed => f.moc.clock) ((fixed_requeueOrder o _).trans (fixed_leaveUseList x.routeDoor o s))
  rw [termIdle, hnow]
  rfl

section
variable {o : OrderId} {x : Order} {k : Fin 16} (ho : s.order? o = some x) (hg : x.state = .granted) (hk : x.terminal = some k)
include ho hg hk

theorem requeueAndRevoke_of_granted : requeueAndRevoke o s =
    placeTerm k (.revoke o) (takenBack o x k s) := by
  simp only [requeueAndRevoke, ho, hg, hk, if_true, takenBack_eq]

theorem requeueWithRevokeDue_of_granted : requeueWithRevokeDue o s =
    (takenBack o x k s).updTerminal k fun y => { y with revokeDue := some o } := by
  simp only [requeueWithRevokeDue, ho, hg, hk, if_true, takenBack_eq]

end

section
variable {e : Fin 12}

/-- R142: an evaporator gives up what it was allotted and waits again. -/
def backToDemanded (e : Fin 12) (s : State) : State :=
  (holdWithdrawal (s.evap e).cfg.room e ((enterPhase e .demanded none s).updEvap e fun y => { y with allowanceHeld := false })).updEvap
    e fun y => { y with holdConfirmed := false, heatTerminated := false }

theorem abandonDefrost_of_allotted (h : (s.evap e).phase = .allotted) : abandonDefrost e s = backToDemanded e s := by
  simp only [abandonDefrost, h, releaseAllowance_enterPhase, backToDemanded]

theorem abandonDefrost_of_running (h : (s.evap e).phase = .pumpdown ∨ (s.evap e).phase = .heat ∨ (s.evap e).phase = .drip) :
    abandonDefrost e s = placeEvap e .run (backToDemanded e s) := by
  rcases h with h | h | h <;> simp only [abandonDefrost, h, releaseAllowance_enterPhase, backToDemanded]

theorem abandonDefrost_of_refreeze (h : (s.evap e).phase = .refreeze) : abandonDefrost e s =
    placeEvap e .run ((enterPhase e .idle none s).updEvap e fun y =>
      { y with frost := 0, forced := false, demandSince := none }) := by
  simp only [abandonDefrost, h]

theorem abandonDefrost_of_kept (h : (s.evap e).phase = .idle ∨ (s.evap e).phase = .demanded ∨ (s.evap e).phase = .fault) :
    abandonDefrost e s = s := by
  rcases h with h | h | h <;> simp only [abandonDefrost, h]

end

end

/-! ## The statement of the supply lines and the modes -/

theorem supplyLines_events (order : List Block) (s : State) : let m := s.moc
    let taken (f : Moc → Moc) : State := setCause .supply (s.withMoc (f m))
    let fails := taken fun x => { x with supplyFail := true }
    let low := taken fun x => { x with batteryLow := true }
    let retains (u : State) : State :=
      let v := raiseAlarm .supplyLoss .site none (if m.mode = .checking then setSelfCheck .supply u else u)
      enterMode .retain order (v.withMoc { v.moc with
        remembered := some (if m.mode = .checking then .standby else m.mode) })
    let returns := taken fun x => { x with supplyFail := false }
    let forgets := returns.withMoc { returns.moc with remembered := none }
    (m.supplyFail = true → exec (.supplyFailActive order) s = .next s)
    ∧ (m.supplyFail = false →
      (m.batteryLow = true → m.mode ≠ .retain → exec (.supplyFailActive order) s = .next (settle (retains fails)))
      ∧ (m.batteryLow = false → m.mode = .run → exec (.supplyFailActive order) s =
        .next (settle (enterMode .holdover order (raiseAlarm .supplyLoss .site none fails))))
      ∧ (m.batteryLow = false → m.mode = .checking → exec (.supplyFailActive order) s =
        .next (settle (enterMode .standby order (raiseAlarm .supplyLoss .site none (setSelfCheck .supply fails)))))
      ∧ (m.batteryLow = false → m.mode = .standby → exec (.supplyFailActive order) s =
        .next (settle (raiseAlarm .supplyLoss .site none fails)))
      ∧ (m.mode = .retain ∨ (m.mode = .holdover ∧ m.batteryLow = false) →
        exec (.supplyFailActive order) s = .next (settle fails)))
    ∧ (m.supplyFail = false → exec (.supplyFailInactive order) s = .next s)
    ∧ (m.supplyFail = true →
      (m.mode = .holdover → exec (.supplyFailInactive order) s = .next (settle (enterMode .run order returns)))
      ∧ (m.mode = .retain → m.remembered = some .run ∨ m.remembered = some .holdover →
        exec (.supplyFailInactive order) s = .next (settle (enterMode .run order forgets)))
      ∧ (m.mode = .retain → m.remembered = some .standby →
        exec (.supplyFailInactive order) s = .next (settle (enterMode .standby order forgets)))
      ∧ (m.mode = .standby ∨ m.mode = .checking ∨ m.mode = .run →
        exec (.supplyFailInactive order) s = .next (settle returns)))
    ∧ (m.batteryLow = true → exec (.batteryLowActive order) s = .next s)
    ∧ (m.batteryLow = false →
      (m.supplyFail = true → m.mode ≠ .retain → exec (.batteryLowActive order) s = .next (settle (retains low)))
      ∧ (m.supplyFail = false ∨ m.mode = .retain → exec (.batteryLowActive order) s = .next (settle low)))
    ∧ (m.batteryLow = true → exec .batteryLowInactive s = .next (settle (taken fun x => { x with batteryLow := false })))
    ∧ (m.batteryLow = false → exec .batteryLowInactive s = .next s) := by
  refine ⟨fun h => congrArg Host.Outcome.next (if_pos h), fun h => ?fails, fun h => congrArg Host.Outcome.next
    (if_neg (Bool.eq_false_iff.1 h)), fun h => ?returns, fun h => congrArg Host.Outcome.next (if_pos h), fun h => ?low,
    fun h => congrArg Host.Outcome.next (if_pos h), fun h => congrArg Host.Outcome.next (if_neg (Bool.eq_false_iff.1 h))⟩
  case fails =>
    rw [exec_supplyFailActive_of_new h]
    refine ⟨fun hb hm => ?_, fun hb hm => ?_, fun hb hm => ?_, fun hb hm => ?_, ?_⟩
    · rw [takeSupplyFail_of_low hb, enterRetain_of_other (s := supplyFailed s) hm]
      rfl
    · rw [takeSupplyFail_of_run hb hm]
      rfl
    · rw [takeSupplyFail_of_checking hb hm]
      rfl
    · rw [takeSupplyFail_of_standby hb hm]
      rfl
    · rintro (hm | ⟨hm, hb⟩)
      · rw [takeSupplyFail_of_retain hm]
        rfl
      · rw [takeSupplyFail_of_holdover hb hm]
        rfl
  case returns =>
    rw [exec_supplyFailInactive_of_new h]
    refine ⟨fun hm => ?_, fun hm hr => ?_, fun hm hr => ?_, fun hm => ?_⟩
    · rw [takeSupplyReturn_of_holdover hm]
      rfl
    · rw [takeSupplyReturn_of_remembered_run hm hr]
      rfl
    · rw [takeSupplyReturn_of_remembered_standby hm hr]
      rfl
    · rw [takeSupplyReturn_of_kept hm]
      rfl
  case low =>
    rw [exec_batteryLowActive_of_new h]
    refine ⟨fun hf hm => ?_, ?_⟩
    · rw [takeBatteryLow_of_fail hf, enterRetain_of_other (s := batteryFell s) hm]
      rfl
    · rintro (hf | hm)
      · rw [takeBatteryLow_of_supplied hf]
        rfl
      · rw [takeBatteryLow_of_retain hm]
        rfl

/-- Settles O59: what each supply line changes by the mode, what every change of mode leaves, and each block's notice. -/
theorem supplyLinesChangeTheMode : Obligations.SupplyLinesChangeTheMode := by
  refine ⟨supplyLines_events, enterMode_facts, ?mds, ?requeue, ?tsu, ?dfc, ?abandon⟩
  case mds =>
    intro left entered s back gone
    have hnotice : blockNotice left entered .mds s = mdsNotice left entered s := rfl
    rw [hnotice, mdsNotice_eq]
    refine ⟨?_, ?_, ?_⟩
    · rintro (rfl | rfl)
      · exact terminalsOffline_eq (grantedBack left .standby s)
      · exact terminalsOffline_eq (grantedBack left .retain s)
    · rintro rfl
      rfl
    · rintro (rfl | rfl)
      · rfl
      · rfl
  case requeue =>
    intro s o x k ho hg hk free
    exact ⟨requeueAndRevoke_of_granted ho hg hk, requeueWithRevokeDue_of_granted ho hg hk⟩
  case tsu =>
    intro left entered s rooms stopped silent minutes charged starts
    refine ⟨?_, ?_, ?_, ?_⟩
    · rintro (rfl | rfl)
      · rfl
      · rfl
    · rintro rfl
      rfl
    · rintro rfl
      rfl
    · rintro rfl
      have hrun : blockNotice left .run .tsu s = starts (gapRule s) := rfl
      refine ⟨fun h => ?_, fun h hm => ?_, fun hm => ?_⟩
      · rw [hrun, gapRule_of_ahead h]
      · rw [hrun, gapRule_of_short h hm]
      · have hcharged : gapClaim minutes s = charged := gapClaim_eq minutes s
        rw [hrun, gapRule_of_minutes hm]
        exact congrArg (fun t : State => starts (t.withTsu { t.tsu with lastAccrual := s.moc.clock })) hcharged
  case dfc =>
    intro left entered s evaps stopped
    refine ⟨?_, ?_, ?_⟩
    · rintro (rfl | rfl)
      · rfl
      · rfl
    · rintro (rfl | rfl)
      · rfl
      · rfl
    · rintro rfl
      rfl
  case abandon =>
    intro s e x waits
    exact ⟨abandonDefrost_of_allotted, abandonDefrost_of_running, abandonDefrost_of_refreeze, abandonDefrost_of_kept⟩

end Sys2Proof.Machine
end

section
/-! SUPPORT. What every step keeps of MOC's record and of the retry interval (R59, R188, R190, R191): what each accepted request leaves
fixed, the changes of mode, and the link's own steps. O12 is settled from these. -/

namespace Sys2Proof.Machine

/-! ## What an accepted request leaves fixed -/

/-- The owner's changes keep the fixed part of the state. -/
def FixedKept (s u : State) : Prop := u.fixed = s.fixed

@[simp] theorem fixedKept_iff {s u : State} : FixedKept s u ↔ u.fixed = s.fixed := Iff.rfl

theorem KeptBy.imp {R Q : State → State → Prop} (h : ∀ s u, R s u → Q s u) {s : State} {r : Reply} (hr : KeptBy R s r) :
    KeptBy Q s r := by
  cases r with
  | error => trivial
  | ok answer => exact h s _ hr

section
variable (args : List Byte) (s : State)

/-! ### CTB and PDR -/

theorem fixedKept_slotBlockReply : KeptBy FixedKept s (slotBlockReply args s) := by
  unfold slotBlockReply blockSlot
  repeat' split
  all_goals simp

theorem fixedKept_tryAdmit (tag : Tag) (c : Fin 16) (d : Fin 24) : KeptBy FixedKept s (tryAdmit tag c d s) := by
  cases hreply : tryAdmit tag c d s with
  | error => exact keptBy_error _
  | ok answer =>
    obtain ⟨rc, results, u⟩ := answer
    obtain ⟨i, -, rfl⟩ := tryAdmit_accepts hreply
    exact keptBy_ok.2 ((fixed_admitPallet ..).trans (fixed_countPallet d s))

theorem fixedKept_admitReply : KeptBy FixedKept s (admitReply args s) := by
  unfold admitReply
  repeat' split
  all_goals simp [fixedKept_tryAdmit]

theorem fixedKept_holdSetReply : KeptBy FixedKept s (holdSetReply args s) := by
  unfold holdSetReply setQuality
  dsimp only
  repeat' split
  all_goals simp

theorem fixedKept_holdClearReply : KeptBy FixedKept s (holdClearReply args s) := by
  unfold holdClearReply
  dsimp only
  repeat' split
  all_goals simp

theorem fixed_correctPlace {h : Handle} {p : Pallet} {new : Place} {s u : State} (hc : correctPlace h p new s = .ok u) :
    u.fixed = s.fixed := by
  unfold correctPlace at hc
  repeat' split at hc
  all_goals cases hc
  · rfl
  next hoccupy => exact (fixed_updPallet ..).trans ((fixed_vacateClaim_getD ..).trans (fixed_occupyClaim hoccupy))

theorem fixedKept_placeCorrectReply : KeptBy FixedKept s (placeCorrectReply args s) := by
  unfold placeCorrectReply confirmPlace
  dsimp only
  repeat' split
  case h_2 hcorrect => exact keptBy_done.2 (by simp [fixed_correctPlace hcorrect])
  all_goals simp

/-! ### MDS -/

theorem fixedKept_moveReply : KeptBy FixedKept s (moveReply args s) := by
  unfold moveReply
  repeat' split
  case h_2 hmove => exact keptBy_done.2 (by simp [fixed_tryMove hmove])
  all_goals simp

theorem fixedKept_moveBatchReply : KeptBy FixedKept s (moveBatchReply args s) := by
  unfold moveBatchReply
  split <;> simp

theorem fixedKept_cancelOrder (o : OrderId) (x : Order) (room : Option Nat) : KeptBy FixedKept s (cancelOrder o x room s) := by
  have carried (t : Fin 16) (r : Nat) : KeptBy FixedKept s (cancelCarried o x t r s) := by
    unfold cancelCarried
    split
    · simp
    next habandon => exact keptBy_done.2 (by simp [fixed_abandonOrder habandon])
  unfold cancelOrder
  repeat' split
  all_goals simp [carried]

theorem fixedKept_moveCancelReply : KeptBy FixedKept s (moveCancelReply args s) := by
  unfold moveCancelReply
  dsimp only
  repeat' split
  all_goals simp [fixedKept_cancelOrder]

theorem fixedKept_moveRedirectReply : KeptBy FixedKept s (moveRedirectReply args s) := by
  unfold moveRedirectReply
  dsimp only
  repeat' split
  case h_2 hredirect => exact keptBy_done.2 (by simp [fixed_tryRedirect hredirect])
  all_goals simp

theorem fixedKept_moveCollect : KeptBy FixedKept s (moveCollect s) :=
  keptBy_done.2 (fixed_forEach _ (fun _ t => fixed_setOrderEntry t _ _) _ _)

theorem fixed_setHold (value : Bool) (ts : List (Fin 16)) : (setHold value ts s).fixed = s.fixed := by
  have hloop : (s.forEach ts fun i s => s.updTerminal i fun x => { x with dispatchHold := value }).fixed = s.fixed :=
    fixed_forEach _ (fun i t => fixed_updTerminal t i _) ts s
  simp [setHold, fixed_ite, hloop]

theorem fixedKept_dispatchHoldReply : KeptBy FixedKept s (dispatchHoldReply args s) := by
  unfold dispatchHoldReply setAllHolds
  dsimp only
  repeat' split
  all_goals simp [fixed_setHold]

theorem fixedKept_terminalSetReply : KeptBy FixedKept s (terminalSetReply args s) := by
  unfold terminalSetReply setTerminal
  repeat' split
  all_goals simp

/-! ### DKC -/

theorem fixed_setInService (d : Fin 24) (inService : Bool) : (setInService d inService s).fixed = s.fixed := by
  simp [setInService, fixed_ite]

theorem fixedKept_doorSetReply : KeptBy FixedKept s (doorSetReply args s) := by
  unfold doorSetReply setDoor
  repeat' split
  all_goals simp [fixed_ite, fixed_setInService]

theorem fixedKept_doorSealReply : KeptBy FixedKept s (doorSealReply args s) := by
  unfold doorSealReply sealDoor sealSession
  repeat' split
  all_goals simp

theorem fixedKept_openDoor (d : Fin 24) : KeptBy FixedKept s (openDoor d s) := by
  unfold openDoor
  dsimp only
  repeat' split
  all_goals simp

theorem fixedKept_doorCloseReply : KeptBy FixedKept s (doorCloseReply args s) := by
  unfold doorCloseReply closeDoor
  dsimp only
  repeat' split
  all_goals simp

theorem fixedKept_releaseDoor (d : Fin 24) : KeptBy FixedKept s (releaseDoor d s) := by
  unfold releaseDoor
  repeat' split
  all_goals simp

theorem fixedKept_resolveFault (d : Fin 24) : KeptBy FixedKept s (resolveFault d s) := by
  unfold resolveFault
  dsimp only
  split <;> simp

/-! ### TSU, DFC and ALT -/

theorem fixedKept_probeSetReply : KeptBy FixedKept s (probeSetReply args s) := by
  unfold probeSetReply setProbe
  repeat' split
  all_goals simp

theorem fixedKept_thermalSetReply : KeptBy FixedKept s (thermalSetReply args s) := by
  unfold thermalSetReply
  dsimp only
  repeat' split
  all_goals simp

theorem fixedKept_evapSetReply : KeptBy FixedKept s (evapSetReply args s) := by
  unfold evapSetReply setEvap
  dsimp only
  repeat' split
  all_goals simp

theorem fixedKept_onConfigured {k : Fin 12 → State → Reply} {e : Fin 12} {s : State} (h : KeptBy FixedKept s (k e s)) :
    KeptBy FixedKept s (onConfigured k e s) :=
  keptBy_ite (fun _ => h) fun _ => keptBy_error _

theorem fixedKept_requestDefrost (e : Fin 12) : KeptBy FixedKept s (requestDefrost e s) := by
  unfold requestDefrost
  split <;> simp

theorem fixedKept_abortDefrost (e : Fin 12) : KeptBy FixedKept s (abortDefrost e s) := by
  unfold abortDefrost abortToIdle
  split <;> simp

theorem fixedKept_releaseEvap (e : Fin 12) : KeptBy FixedKept s (releaseEvap e s) := by
  unfold releaseEvap releaseFault
  split <;> simp

theorem fixedKept_alarmAckReply : KeptBy FixedKept s (alarmAckReply args s) := by
  unfold alarmAckReply ackAll ackPair
  repeat' split
  all_goals simp

/-! ### The reads -/

theorem fixedKept_slotReadReply : KeptBy FixedKept s (slotReadReply args s) := by
  unfold slotReadReply
  repeat' split
  all_goals simp

theorem fixedKept_findTagReply : KeptBy FixedKept s (findTagReply args s) := by
  unfold findTagReply
  dsimp only
  repeat' split
  all_goals simp

theorem fixedKept_censusReply : KeptBy FixedKept s (censusReply args s) := by
  unfold censusReply
  repeat' split
  all_goals simp

theorem fixedKept_moveReadReply : KeptBy FixedKept s (moveReadReply args s) := by
  unfold moveReadReply
  repeat' split
  all_goals simp

theorem fixedKept_alarmListReply : KeptBy FixedKept s (alarmListReply args s) := by
  unfold alarmListReply
  repeat' split
  all_goals simp

theorem fixedKept_alarmReadReply : KeptBy FixedKept s (alarmReadReply args s) := by
  unfold alarmReadReply readAlarm
  repeat' split
  all_goals simp

end

/-! ## What keeps MOC's bounds (R188, R190, R191) -/

/-- The clock stays within 32 bits, and the checks and the roll call limit within CHECKING. -/
structure MocKept (s u : State) : Prop where
  clock : ClockBounded s → ClockBounded u
  checks : ChecksInChecking s → ChecksInChecking u

namespace MocKept

section
variable {s t u : State}

theorem of_moc (h : u.moc = s.moc) : MocKept s u := by
  constructor
  · intro hs
    unfold ClockBounded at *
    rwa [h]
  · intro hs
    unfold ChecksInChecking at *
    rwa [h]

theorem refl (s : State) : MocKept s s := of_moc rfl

theorem of_fixed (h : u.fixed = s.fixed) : MocKept s u := of_moc (congrArg Fixed.moc h)

theorem trans (h : MocKept s t) (k : MocKept t u) : MocKept s u := ⟨k.clock ∘ h.clock, k.checks ∘ h.checks⟩

theorem ite {c : Prop} [Decidable c] (ht : MocKept s t) (hu : MocKept s u) : MocKept s (if c then t else u) := by
  split
  · exact ht
  · exact hu

/-- The last fields of MOC's record are free: the bounds speak of the clock, the checks, the limit and the mode. -/
theorem of_fields (hclock : u.moc.clock = s.moc.clock) (hchecks : u.moc.checksDue = s.moc.checksDue)
    (hlimit : u.moc.rollCallDue = s.moc.rollCallDue) (hmode : u.moc.mode = s.moc.mode) : MocKept s u := by
  constructor
  · intro hs
    unfold ClockBounded at *
    rwa [hclock]
  · intro hs
    unfold ChecksInChecking at *
    rwa [hchecks, hlimit, hmode]

theorem settled (h : MocKept s u) : MocKept s (settle u) := h.trans (of_moc (settle_moc u))

end

end MocKept

/-- The checks are due, and the limit runs, after no change of mode but the one to CHECKING. -/
theorem checksInChecking_enterMode (entered : Mode) (order : List Block) (s : State) :
    ChecksInChecking (enterMode entered order s) := by
  unfold ChecksInChecking
  rw [moc_enterMode]
  exact ⟨of_decide_eq_true, fun h => absurd h Bool.false_ne_true⟩

/-- A change of mode, after changes to MOC's record that leave the clock. -/
theorem mocKept_enterMode {s t : State} (entered : Mode) (order : List Block) (h : t.moc.clock = s.moc.clock) :
    MocKept s (enterMode entered order t) := by
  refine ⟨fun hs => ?_, fun _ => checksInChecking_enterMode entered order t⟩
  unfold ClockBounded at *
  rw [moc_enterMode]
  exact h.trans_le hs

theorem clock_setSelfCheck (r : SelfCheck) (s : State) : (setSelfCheck r s).moc.clock = s.moc.clock := by
  unfold setSelfCheck
  split <;> rfl

theorem clock_selfCheckSupply (s : State) : (selfCheckSupply s).moc.clock = s.moc.clock := by
  unfold selfCheckSupply
  split
  · exact clock_setSelfCheck _ s
  · rfl

/-! ### The supply lines and the events of CHECKING -/

theorem mocKept_enterRetain (order : List Block) (s : State) : MocKept s (enterRetain order s) :=
  .ite (.refl s) (mocKept_enterMode .retain order (clock_selfCheckSupply s))

/-- R193 to R195: recording a line leaves clock, checks, limit and mode. -/
theorem mocKept_supplyFailed (s : State) : MocKept s (supplyFailed s) := .of_fields rfl rfl rfl rfl

theorem mocKept_batteryFell (s : State) : MocKept s (batteryFell s) := .of_fields rfl rfl rfl rfl

theorem mocKept_supplyReturned (s : State) : MocKept s (supplyReturned s) := .of_fields rfl rfl rfl rfl

theorem mocKept_takeSupplyFail (order : List Block) (s : State) : MocKept s (takeSupplyFail order s) := by
  unfold takeSupplyFail
  refine .ite ((mocKept_supplyFailed s).trans (mocKept_enterRetain order _)) ?_
  split
  · exact mocKept_enterMode .holdover order rfl
  · exact mocKept_enterMode .standby order (clock_selfCheckSupply (supplyFailed s))
  · exact .of_fields rfl rfl rfl rfl
  · exact mocKept_supplyFailed s

theorem mocKept_takeBatteryLow (order : List Block) (s : State) : MocKept s (takeBatteryLow order s) :=
  .ite ((mocKept_batteryFell s).trans (mocKept_enterRetain order _)) (mocKept_batteryFell s)

theorem mocKept_takeSupplyReturn (order : List Block) (s : State) : MocKept s (takeSupplyReturn order s) := by
  unfold takeSupplyReturn
  dsimp only
  split
  · exact mocKept_enterMode .run order rfl
  · exact .ite (mocKept_enterMode .run order rfl) (mocKept_enterMode .standby order rfl)
  · exact mocKept_supplyReturned s

/-- R190: the checks are made in CHECKING, and the limit starts there. -/
theorem mocKept_makeChecks (order : List Block) {s : State} (hm : s.mode = .checking) : MocKept s (makeChecks order s) := by
  cases h : s.firstFailure with
  | some n =>
    rw [makeChecks_of_failure h]
    exact mocKept_enterMode .standby order (clock_setSelfCheck _ s)
  | none =>
    rw [makeChecks_of_pass h]
    refine MocKept.trans (t := s.withMoc { s.moc with
      checksDue := false, rollCallDue := some (s.now + Config.rollCallLimit) }) ?_ ?_
    · exact ⟨id, fun _ => ⟨fun _ => hm, fun _ => hm⟩⟩
    · exact .of_fixed (fixed_forEach _ (fun l t => fixed_startRollCall l t) _ _)

theorem mocKept_rollCallPassed (order : List Block) (s : State) : MocKept s (rollCallPassed order s) :=
  mocKept_enterMode .run order (clock_setSelfCheck _ _)

theorem mocKept_rollCallTimeout (order : List Block) (s : State) : MocKept s (rollCallTimeout order s) :=
  mocKept_enterMode .standby order (clock_setSelfCheck _ s)

/-! ### The resets -/

theorem mocKept_sampleLines (supplyFail batteryLow : Bool) (order : List Block) (s : State) :
    MocKept s (sampleLines supplyFail batteryLow order s) := by
  have low : MocKept s (if batteryLow then takeBatteryLow order s else s) := .ite (mocKept_takeBatteryLow order s) (.refl s)
  exact .ite (low.trans (mocKept_takeSupplyFail order _)) low

theorem mocKept_coldStart (strap : Strap) (supplyFail batteryLow : Bool) (order : List Block) (s : State) :
    MocKept s (coldStart strap supplyFail batteryLow order s) := by
  refine MocKept.trans ⟨fun _ => Nat.zero_le _, fun _ => ⟨fun h => ?_, fun h => ?_⟩⟩ (mocKept_sampleLines ..)
  · exact absurd h Bool.false_ne_true
  · exact absurd h Bool.false_ne_true

theorem moc_restartChanges (supplyFail batteryLow : Bool) (s v : State) :
    (restartChanges supplyFail batteryLow s v).moc = v.moc := by
  unfold restartChanges
  split <;> rfl

theorem mocKept_warmRestart (supplyFail batteryLow : Bool) (order : List Block) (s : State) :
    MocKept s (warmRestart supplyFail batteryLow order s) := by
  obtain ⟨-, -, hmoc, -⟩ := warmRestartBlocks_parts s
  have hrestart : (restartChanges supplyFail batteryLow s (warmRestartBlocks s)).moc = (mocWarmRestart s).moc :=
    (moc_restartChanges ..).trans hmoc
  refine MocKept.trans ⟨fun hs => ?_, fun _ => ?_⟩ (mocKept_sampleLines ..)
  · unfold ClockBounded at *
    rw [hrestart]
    exact hs
  · unfold ChecksInChecking
    rw [hrestart]
    exact ⟨fun h => absurd h Bool.false_ne_true, fun h => absurd h Bool.false_ne_true⟩

/-! ### The requests -/

theorem mocKept_roomSetReply (args : List Byte) (s : State) : KeptBy MocKept s (roomSetReply args s) := by
  have kindSet (r : Fin 8) (k : RoomKind) : MocKept s (setRoomKind r k s) :=
    .of_moc (congrArg Fixed.moc (fixed_evaluateRoom r _))
  unfold roomSetReply
  repeat' split
  all_goals simp [kindSet, MocKept.refl]

theorem mocKept_slotMapSetReply (args : List Byte) (s : State) : KeptBy MocKept s (slotMapSetReply args s) := by
  have mapSet (ending : Vector Nat 8) : MocKept s (setSlotMap ending s) := .of_moc rfl
  unfold slotMapSetReply
  dsimp only
  repeat' split
  all_goals simp [mapSet]

theorem mocKept_classSetReply (args : List Byte) (s : State) : KeptBy MocKept s (classSetReply args s) := by
  have store (c : Fin 16) (x : ClassRec) : KeptBy MocKept s (storeClass c x s) := by
    refine keptBy_ite (fun _ => ?_) fun _ => ?_
    · exact keptBy_ite (fun _ => keptBy_error _) fun _ => keptBy_done.2 (.of_moc rfl)
    · exact keptBy_done.2 (.of_moc (congrArg Fixed.moc (fixed_reevaluateClass c (setClass c x s))))
  unfold classSetReply
  dsimp only
  repeat' split
  all_goals simp [store]

theorem mocKept_readAttentionReply (args : List Byte) (s : State) : KeptBy MocKept s (readAttentionReply args s) := by
  have cause (c : Cause) : KeptBy MocKept s (returnCause c s) := keptBy_done.2 (.of_moc (by cases c <;> rfl))
  have top : KeptBy MocKept s (returnTop s) := by
    unfold returnTop
    split
    · exact cause _
    · exact keptBy_done.2 (.refl s)
  unfold readAttentionReply
  repeat' split
  all_goals simp [cause, top]

theorem mocKept_attentionMaskReply (args : List Byte) (s : State) : KeptBy MocKept s (attentionMaskReply args s) := by
  unfold attentionMaskReply
  repeat' split
  case isFalse => exact keptBy_done.2 (.of_moc rfl)
  all_goals exact keptBy_error _

theorem mocKept_setSite (clock : Option Time) (allowance : Option Nat) (s : State) (h : ∀ c, clock = some c → c ≤ 4294967295) :
    KeptBy MocKept s (setSite clock allowance s) := by
  refine keptBy_ite (fun _ => keptBy_error _) fun _ => keptBy_ite (fun _ => keptBy_error _) fun _ => keptBy_done.2 ?_
  cases clock with
  | none => exact .of_moc rfl
  | some c => exact ⟨fun _ => h c rfl, id⟩

/-- R188, 11.5: the four bytes of a clock value spell a number within 32 bits. -/
theorem le_of_readOptional {flag c3 c2 c1 c0 : Byte} {clock : Option Nat}
    (h : readOptional flag (beNat [c3, c2, c1, c0]) = some clock) (c : Nat) (hc : clock = some c) : c ≤ 4294967295 := by
  have hlt : beNat [c3, c2, c1, c0] < 4294967296 := by simpa using beNat_lt [c3, c2, c1, c0]
  subst hc
  unfold readOptional at h
  repeat' split at h
  all_goals cases h
  exact Nat.le_of_lt_succ hlt

theorem mocKept_siteSetReply (args : List Byte) (s : State) : KeptBy MocKept s (siteSetReply args s) := by
  unfold siteSetReply
  repeat' split
  next hclock _ => exact mocKept_setSite _ _ s (le_of_readOptional hclock)
  all_goals exact keptBy_error _

theorem mocKept_startSite (order : List Block) (s : State) : KeptBy MocKept s (startSite order s) :=
  keptBy_ite (fun _ => keptBy_error _) fun _ => keptBy_ite (fun _ => keptBy_error _) fun _ =>
    keptBy_started.2 (mocKept_enterMode .checking order (clock_setSelfCheck _ _))

theorem mocKept_stopSite (order : List Block) (s : State) : KeptBy MocKept s (stopSite order s) :=
  keptBy_ite (fun _ => keptBy_error _) fun _ => keptBy_ite (fun _ => keptBy_error _) fun _ =>
    keptBy_done.2 (mocKept_enterMode .standby order rfl)

/-! ## Every request -/

theorem mocKept_of_fixedKept {s : State} {r : Reply} (h : KeptBy FixedKept s r) : KeptBy MocKept s r :=
  h.imp fun _ _ => .of_fixed

/-- The requests whose owner writes the link's registers, the room kinds and endings, the classes, or MOC's record. -/
def Instr.writesFixed : Instr → Bool
  | .readAttention | .attentionMask | .siteSet | .startSite _ | .stopSite _ | .linkReset | .roomSet | .slotMapSet | .classSet => true
  | _ => false

theorem fixedKept_ownerReply {c : Instr} (hc : Instr.writesFixed c = false) (args : List Byte) (s : State) :
    KeptBy FixedKept s (ownerReply c args s) := by
  cases c
  case readAttention | attentionMask | siteSet | startSite | stopSite | linkReset | roomSet | slotMapSet | classSet =>
    exact absurd hc.symm Bool.false_ne_true
  all_goals simp only [ownerReply]
  case readIdent | readMode => exact keptBy_noArgs (by simp) args
  case moveCollect => exact keptBy_noArgs (fixedKept_moveCollect s) args
  case alarmOverflowClear => exact keptBy_noArgs (by simp [clearOverflow]) args
  case roomRead | roomCount | laneRead | terminalRead | doorRead | roomTempRead | probeRead | evapRead =>
    exact keptBy_oneFin (by simp) args
  case doorOpen => exact keptBy_oneFin (fixedKept_openDoor s) args
  case doorRelease => exact keptBy_oneFin (fixedKept_releaseDoor s) args
  case doorClearFault => exact keptBy_oneFin (fixedKept_resolveFault s) args
  case defrostRequest => exact keptBy_oneFin (fun e => fixedKept_onConfigured (fixedKept_requestDefrost s e)) args
  case defrostAbort => exact keptBy_oneFin (fun e => fixedKept_onConfigured (fixedKept_abortDefrost s e)) args
  case evapRelease => exact keptBy_oneFin (fun e => fixedKept_onConfigured (fixedKept_releaseEvap s e)) args
  case palletRead => exact keptBy_oneHandle (by simp) args
  case retire =>
    exact keptBy_oneHandle
      (fun h _ => keptBy_ite (fun _ => keptBy_error _) fun _ => keptBy_done.2 (fixed_retirePallet h s)) args
  case slotRead => exact fixedKept_slotReadReply args s
  case slotBlock => exact fixedKept_slotBlockReply args s
  case admission => exact fixedKept_admitReply args s
  case findTag => exact fixedKept_findTagReply args s
  case census => exact fixedKept_censusReply args s
  case holdSet => exact fixedKept_holdSetReply args s
  case holdClear => exact fixedKept_holdClearReply args s
  case placeCorrect => exact fixedKept_placeCorrectReply args s
  case move => exact fixedKept_moveReply args s
  case moveBatch => exact fixedKept_moveBatchReply args s
  case moveCancel => exact fixedKept_moveCancelReply args s
  case moveRedirect => exact fixedKept_moveRedirectReply args s
  case moveRead => exact fixedKept_moveReadReply args s
  case dispatchHold => exact fixedKept_dispatchHoldReply args s
  case terminalSet => exact fixedKept_terminalSetReply args s
  case doorSet => exact fixedKept_doorSetReply args s
  case doorSeal => exact fixedKept_doorSealReply args s
  case doorClose => exact fixedKept_doorCloseReply args s
  case probeSet => exact fixedKept_probeSetReply args s
  case thermalSet => exact fixedKept_thermalSetReply args s
  case evapSet => exact fixedKept_evapSetReply args s
  case alarmList => exact fixedKept_alarmListReply args s
  case alarmAck => exact fixedKept_alarmAckReply args s
  case alarmRead => exact fixedKept_alarmReadReply args s
  all_goals exact keptBy_error _

theorem mocKept_ownerReply (c : Instr) (args : List Byte) (s : State) : KeptBy MocKept s (ownerReply c args s) := by
  cases hc : Instr.writesFixed c with
  | false => exact mocKept_of_fixedKept (fixedKept_ownerReply hc args s)
  | true =>
    cases c
    case readAttention => exact mocKept_readAttentionReply args s
    case attentionMask => exact mocKept_attentionMaskReply args s
    case siteSet => exact mocKept_siteSetReply args s
    case startSite order => exact keptBy_noArgs (mocKept_startSite order s) args
    case stopSite order => exact keptBy_noArgs (mocKept_stopSite order s) args
    case linkReset => exact keptBy_noArgs (k := linkReset) (.of_moc rfl) args
    case roomSet => exact mocKept_roomSetReply args s
    case slotMapSet => exact mocKept_slotMapSetReply args s
    case classSet => exact mocKept_classSetReply args s
    all_goals exact absurd hc Bool.false_ne_true

/-! ## The link -/

/-- What the link's own steps leave alone: MDS, and MOC's record. -/
def State.besideLink (s : State) : Mds × Moc := (s.mds, s.moc)

section
variable {s t : State}

theorem besideLink_takeHead {f : RequestFrame} (h : s.takeHead = some (f, t)) : t.besideLink = s.besideLink := by
  rw [takeHead_eq h]
  rfl

theorem besideLink_pushAnswer (f : RequestFrame) (rc : ResultCode) (results : List Byte) (s : State) :
    (pushAnswer f rc results s).besideLink = s.besideLink := rfl

theorem besideLink_judgeReceived (ready : Bool) (received : List Byte) (s : State) :
    (judgeReceived ready received s).besideLink = s.besideLink := by
  unfold judgeReceived queueFrame
  dsimp only
  repeat' split
  all_goals rfl

theorem besideLink_endExchange (received : List Byte) (s : State) : (endExchange received s).besideLink = s.besideLink := by
  unfold endExchange
  split
  next => rfl
  next => exact besideLink_judgeReceived ..

theorem besideLink_handOffUnknown (s : State) : (handOffUnknown s).besideLink = s.besideLink := by
  unfold handOffUnknown
  split
  next hhead =>
    split
    next => exact (besideLink_pushAnswer ..).trans (besideLink_takeHead hhead)
    next => rfl
  next => rfl

theorem MocKept.of_besideLink (h : t.besideLink = s.besideLink) : MocKept s t := .of_moc (congrArg Prod.snd h)

end

theorem mocKept_handOff {code : Byte} {k : List Byte → State → Reply} (hk : ∀ args s, KeptBy MocKept s (k args s)) (s : State) :
    MocKept s (handOff code k s) := by
  rcases handOff_cases code k s with hidle | ⟨f, t, hhead, ⟨rc, hrefused⟩ | ⟨rc, results, u, hreply, hdone⟩⟩
  · rw [hidle]
    exact .refl s
  · rw [hrefused]
    exact .of_besideLink ((besideLink_pushAnswer ..).trans (besideLink_takeHead hhead))
  · have accepted : MocKept t u := by
      have h := hk f.args t
      rwa [hreply] at h
    rw [hdone]
    exact ((MocKept.of_besideLink (besideLink_takeHead hhead)).trans accepted).trans (.of_moc rfl)

/-! ## Every other row -/

theorem moc_missedRow (l : Lane) (received : List Byte) (s : State) : (missedRow l received s).moc = s.moc := by
  unfold missedRow
  split
  next => exact (settle_moc _).trans (congrArg Fixed.moc (fixed_missedAnswer ..))
  next => rfl

theorem moc_reportRow (l : Lane) (ofRow : Report → Bool) (received : List Byte) (s : State) :
    (reportRow l ofRow received s).moc = s.moc := by
  unfold reportRow
  repeat' split
  next => exact (settle_moc _).trans (congrArg Fixed.moc (fixed_goodAnswer ..))
  all_goals rfl

/-- A row that acts when its deadline has come, or its event can occur, and does nothing else. -/
theorem mocKept_settle_ite {c : Prop} [Decidable c] {s u : State} (h : c → MocKept s u) : MocKept s (if c then settle u else s) := by
  split
  next hc => exact (h hc).settled
  next => exact .refl s

theorem mocKept_exec {c : Instr} {s t : State} (h : exec c s = .next t) : MocKept s t := by
  cases hcode : requestCode c with
  | some code =>
    rw [exec_eq_handOff hcode] at h
    cases h
    exact mocKept_handOff (mocKept_ownerReply c) s
  | none =>
    cases c <;> simp only [requestCode, reduceCtorEq] at hcode
    all_goals
      injection h with h
      subst h
    case exchangeBegin => exact .ite (.refl s) (.of_moc rfl)
    case exchangeEnd received => exact .of_besideLink (besideLink_endExchange received s)
    case unknownRequest => exact .of_besideLink (besideLink_handOffUnknown s)
    case missedPoll => exact .of_moc (moc_missedRow ..)
    case doorStatus | probeSetReport | controllerStatus | picked | dropped | abandon | submit | readyReport =>
      exact .of_moc (moc_reportRow ..)
    case coldStart strap supplyFail batteryLow order => exact (mocKept_coldStart strap supplyFail batteryLow order s).settled
    case warmRestart supplyFail batteryLow order => exact (mocKept_warmRestart supplyFail batteryLow order s).settled
    case supplyFailActive order => exact .ite (.refl s) (mocKept_takeSupplyFail order s).settled
    case supplyFailInactive order => exact .ite (mocKept_takeSupplyReturn order s).settled (.refl s)
    case batteryLowActive order => exact .ite (.refl s) (mocKept_takeBatteryLow order s).settled
    case batteryLowInactive => exact mocKept_settle_ite fun _ => .of_fields rfl rfl rfl rfl
    case consistencyChecks order => exact mocKept_settle_ite fun hdue => mocKept_makeChecks order hdue.1
    case rollCallCompletion order => exact mocKept_settle_ite fun _ => mocKept_rollCallPassed order s
    case rollCallLimitExpiry order => exact mocKept_settle_ite fun _ => mocKept_rollCallTimeout order s
    case dispatchRetryExpiry => exact .ite (.of_fixed (by simp [retryExpiry])) (.refl s)
    all_goals
      refine mocKept_settle_ite fun _ => .of_fixed ?_
      simp [sealExpiry, openWaitExpiry, frostTick, deferralExpiry, maxHeatExpiry, fixed_ite]

/-- R188: the clock stops at the largest 32-bit value. -/
theorem clock_tick_le {m : Moc} (h : m.clock ≤ 4294967295) : m.tick.clock ≤ 4294967295 := by
  unfold Moc.tick
  dsimp only
  split
  next hlt => exact hlt
  next => exact h

theorem mocKept_tick (s : State) : MocKept s s.tick := ⟨clock_tick_le, id⟩

theorem mocKept_step {s t : State} (h : step s = .next t) : MocKept s t := by
  unfold step at h
  split at h
  · cases h
    exact mocKept_tick s
  next c rest _ => exact MocKept.trans (t := s.withPending rest) (.of_moc rfl) (mocKept_exec h)

/-! ## The retry interval (R59) -/

/-- R59: the interval's condition reads MDS and the mode alone. -/
theorem retryTrue_of_besideLink {s t : State} (h : t.besideLink = s.besideLink) (hs : RetryTrue s) : RetryTrue t := by
  have hmds : t.mds = s.mds := congrArg Prod.fst h
  have hmoc : t.moc = s.moc := congrArg Prod.snd h
  unfold RetryTrue State.retryWanted State.ordersIn State.orders State.terminal State.mode at *
  rwa [hmds, hmoc]

theorem retryTrue_handOff (code : Byte) (k : List Byte → State → Reply) {s : State} (hs : RetryTrue s) :
    RetryTrue (handOff code k s) := by
  rcases handOff_cases code k s with hidle | ⟨f, t, hhead, ⟨rc, hrefused⟩ | ⟨rc, results, u, -, hdone⟩⟩
  · rwa [hidle]
  · rw [hrefused]
    exact retryTrue_of_besideLink ((besideLink_pushAnswer ..).trans (besideLink_takeHead hhead)) hs
  · rw [hdone]
    exact settle_retry _

theorem retryTrue_ite {c : Prop} [Decidable c] {s u : State} (hs : RetryTrue s) (hu : RetryTrue u) :
    RetryTrue (if c then s else u) := by
  split
  · exact hs
  · exact hu

theorem retryTrue_reportRow (l : Lane) (ofRow : Report → Bool) (received : List Byte) {s : State} (hs : RetryTrue s) :
    RetryTrue (reportRow l ofRow received s) := by
  unfold reportRow
  repeat' split
  next => exact settle_retry _
  all_goals exact hs

theorem retryTrue_missedRow (l : Lane) (received : List Byte) {s : State} (hs : RetryTrue s) :
    RetryTrue (missedRow l received s) := by
  unfold missedRow
  split
  next => exact settle_retry _
  next => exact hs

/-- Every row that can change MDS or the mode ends in `settle` (log entry 14). -/
theorem retryTrue_exec {c : Instr} {s t : State} (hs : RetryTrue s) (h : exec c s = .next t) : RetryTrue t := by
  cases hcode : requestCode c with
  | some code =>
    rw [exec_eq_handOff hcode] at h
    cases h
    exact retryTrue_handOff code (ownerReply c) hs
  | none =>
    cases c <;> simp only [requestCode, reduceCtorEq] at hcode
    all_goals
      injection h with h
      subst h
    case exchangeBegin => exact retryTrue_ite hs (retryTrue_of_besideLink (s := s) rfl hs)
    case exchangeEnd received => exact retryTrue_of_besideLink (besideLink_endExchange received s) hs
    case unknownRequest => exact retryTrue_of_besideLink (besideLink_handOffUnknown s) hs
    case missedPoll => exact retryTrue_missedRow _ _ hs
    case doorStatus | probeSetReport | controllerStatus | picked | dropped | abandon | submit | readyReport =>
      exact retryTrue_reportRow _ _ _ hs
    case coldStart | warmRestart => exact settle_retry _
    case supplyFailActive | batteryLowActive => exact retryTrue_ite hs (settle_retry _)
    all_goals exact retryTrue_ite (settle_retry _) hs

theorem retryTrue_step {s t : State} (hs : RetryTrue s) (h : step s = .next t) : RetryTrue t := by
  unfold step at h
  split at h
  · cases h
    exact hs
  next c rest _ => exact retryTrue_exec (s := s.withPending rest) hs h

/-- Settles O12: a step keeps the clock's bound, the checks within CHECKING, and the retry interval with its condition. -/
theorem stepsKeepClockChecksAndRetry : Obligations.StepsKeepClockChecksAndRetry :=
  ⟨fun _ _ hs h => (mocKept_step h).clock hs, fun _ _ hs h => (mocKept_step h).checks hs, fun _ _ hs h => retryTrue_step hs h⟩

end Sys2Proof.Machine
end

section
/-! SUPPORT. What DKC's operations leave in the door records: the record of the door acted on, and the records that the trailer-gone
effects (R40, R71, R91) leave alone but for the use lists. -/

namespace Sys2Proof.Machine

section
variable (s : State) (d : Fin 24)

theorem door_doorEnter (st : DoorState) : (doorEnter d st s).door d = { s.door d with state := st, stateSince := s.now } :=
  door_updDoor_same s d _

theorem door_doorOutcome (out : DoorOutcome) : (doorOutcome d out s).door d = { s.door d with outcome := out } :=
  door_updDoor_same s d _

theorem door_confirmSeal : (confirmSeal d s).door d =
    { s.door d with session := (s.door d).session.map fun y => { y with sealedAt := some (y.sealedAt.getD s.now) } } :=
  door_updDoor_same s d _

theorem door_clearAlarm (k : AlarmKind) (sub : Subject) : (clearAlarm k sub s).door d = s.door d := rfl

theorem door_raiseAlarm (k : AlarmKind) (sub : Subject) (v : Option AlarmValue) : (raiseAlarm k sub v s).door d = s.door d := rfl

theorem door_placeDoor (e : Fin 24) (c : DoorCmd) : (placeDoor e c s).door d = s.door d := rfl

/-- The re-evaluation of a hold leaves every door's state (R99). -/
theorem state_reevaluateHold (r : Fin 8) : ((reevaluateHold r s).door d).state = (s.door d).state :=
  congrArg (fun x : NoticeFrame => (x.door d).2) (noticeFrame_reevaluateHold s r)

end

/-- R97: a door at rest with its leaf shut counts as closed. -/
theorem Door.notClosed_of_rest {x : Door} (h : x.state = .vacant ∨ x.state = .arrived ∨ x.state = .sealed) :
    x.notClosed = false := by
  rcases h with h | h | h <;> simp [Door.notClosed, Door.leafMayBeOpen, h]

/-! ## The door records with their use lists shown empty -/

/-- The door records of a state, their use lists left out. -/
def State.doorFrame (s : State) (d : Fin 24) : Door := { s.door d with useList := [] }

section
variable (s : State)

theorem doorFrame_of_passFrame {s u : State} (h : u.passFrame = s.passFrame) : u.doorFrame = s.doorFrame :=
  congrArg PassFrame.door h

@[simp] theorem doorFrame_dispatchPass : (dispatchPass s).doorFrame = s.doorFrame :=
  doorFrame_of_passFrame (passFrame_dispatchPass s)

@[simp] theorem doorFrame_leaveUseList (d : Option (Fin 24)) (o : OrderId) : (leaveUseList d o s).doorFrame = s.doorFrame := by
  cases d with
  | none => rfl
  | some d => exact doorFrame_of_passFrame (passFrame_updUseList s d fun l => l.erase o)

@[simp] theorem doorFrame_termIdle (k : Fin 16) : (termIdle k s).doorFrame = s.doorFrame := rfl

@[simp] theorem doorFrame_placeTerm (k : Fin 16) (c : TermCmd) : (placeTerm k c s).doorFrame = s.doorFrame := rfl

@[simp] theorem doorFrame_releaseClaim (o : OrderId) (p : Place) : (releaseClaim o p s).doorFrame = s.doorFrame := by
  unfold releaseClaim
  (repeat' split) <;> rfl

@[simp] theorem doorFrame_unbindClaim (h : Handle) (o : OrderId) : (unbindClaim h o s).doorFrame = s.doorFrame := by
  unfold unbindClaim boundClaim
  (repeat' split) <;> rfl

@[simp] theorem doorFrame_finishOrder (o : OrderId) (out : Outcome) : (finishOrder o out s).doorFrame = s.doorFrame := rfl

/-- A withdrawal changes use lists alone in the door records (R68). -/
@[simp] theorem doorFrame_withdrawOrder (out : Outcome) (o : OrderId) : (withdrawOrder out o s).doorFrame = s.doorFrame := by
  unfold withdrawOrder
  (repeat' split) <;> simp

theorem doorFrame_vacateClaim {h : Handle} {p : Place} {u : State} (hu : vacateClaim h p s = some u) : u.doorFrame = s.doorFrame := by
  unfold vacateClaim at hu
  split at hu
  case h_5 => cases hu
  all_goals
    obtain ⟨-, heq⟩ := Option.ite_none_right_eq_some.1 hu
    cases heq
    rfl

/-- A retirement leaves the door records (R38). -/
@[simp] theorem doorFrame_retirePallet (h : Handle) : (retirePallet h s).doorFrame = s.doorFrame := by
  unfold retirePallet
  split
  next => rfl
  next p _ =>
    have hvacated : ((vacateClaim h p.place s).getD s).doorFrame = s.doorFrame := by
      cases hu : vacateClaim h p.place s with
      | none => rfl
      | some u => exact doorFrame_vacateClaim s hu
    exact hvacated

@[simp] theorem doorFrame_withdrawTrailerGone (d : Fin 24) : (withdrawTrailerGone d s).doorFrame = s.doorFrame :=
  frame_forEach State.doorFrame _ (fun o t => doorFrame_withdrawOrder t _ o) _ s

@[simp] theorem doorFrame_retireDoorSet (d : Fin 24) : (retireDoorSet d s).2.doorFrame = s.doorFrame :=
  frame_forEach State.doorFrame _ (fun h t => doorFrame_retirePallet t h) _ s

end

/-- A door whose trailer has gone is VACANT, in the room it was in (R91). -/
theorem door_trailerGone (d : Fin 24) (s : State) :
    ((trailerGone d s).door d).state = .vacant ∧ ((trailerGone d s).door d).room = (s.door d).room := by
  have hframe : (retireDoorSet d (withdrawTrailerGone d s)).2.doorFrame = s.doorFrame := by simp
  have hkept : ((retireDoorSet d (withdrawTrailerGone d s)).2.door d).room = (s.door d).room :=
    (congrArg Door.room (congrFun hframe d) :)
  simp only [trailerGone, door_clearAlarm, door_doorOutcome, door_doorEnter, door_updDoor_same, hkept, and_self]

end Sys2Proof.Machine
end

section
/-! SUPPORT. DOOR_SET: what DKC answers to an argument list of the request's form, and the change of a door's service (R79, R168). -/

namespace Sys2Proof.Machine

/-! ## DOOR_SET: the checks (R79) -/

/-- A room above 7 or a flag byte above 01h is BAD_ARG. -/
theorem doorSetReply_of_range {d1 d0 r1 r0 m1 m0 b : Byte} (hrange : 8 ≤ beNat [r1, r0] ∨ 1 < b.toNat) (s : State) :
    doorSetReply [d1, d0, r1, r0, m1, m0, b] s = .error .badArg := by
  unfold doorSetReply
  simp only
  split
  next hroom hflag =>
    rcases hrange with hr | hb
    · exact absurd (hroom.symm.trans (readFin_of_le hr)) (Option.some_ne_none _)
    · exact absurd (hflag.symm.trans (readFlag_of_gt hb)) (Option.some_ne_none _)
  next => rfl

section
variable {s : State} {d : Fin 24} {room : Fin 8} {lim : Nat} {on : Bool}

theorem doorSetReply_of_limit (hlim : lim < 65536) (hbad : lim < 60 ∨ 3600 < lim) :
    doorSetReply (be 2 d.1 ++ be 2 room.1 ++ be 2 lim ++ flag1 on) s = .error .badArg := by
  have hd : d.1 < 65536 := by omega
  have hroom : room.1 < 65536 := by omega
  simp only [doorSetReply, be_two, flag1, List.cons_append, List.nil_append, num_be hd, num_be hroom, num_be hlim, readFin_val,
    readFlag_flag, if_pos hbad]

section
variable (hlow : 60 ≤ lim) (hhigh : lim ≤ 3600)
include hlow hhigh

theorem doorSetReply_of_refused {rc : ResultCode} (hr : s.doorSetRefusal d room on = some rc) :
    doorSetReply (be 2 d.1 ++ be 2 room.1 ++ be 2 lim ++ flag1 on) s = .error rc := by
  have hd : d.1 < 65536 := by omega
  have hroom : room.1 < 65536 := by omega
  have hlim : lim < 65536 := by omega
  have hgood : ¬(lim < 60 ∨ 3600 < lim) := by omega
  simp only [doorSetReply, be_two, flag1, List.cons_append, List.nil_append, num_be hd, num_be hroom, num_be hlim, readFin_val,
    readFlag_flag, if_neg hgood, hr]

theorem doorSetReply_of_accepted (hr : s.doorSetRefusal d room on = none) :
    doorSetReply (be 2 d.1 ++ be 2 room.1 ++ be 2 lim ++ flag1 on) s = done [] (setDoor d room lim on s) := by
  have hd : d.1 < 65536 := by omega
  have hroom : room.1 < 65536 := by omega
  have hlim : lim < 65536 := by omega
  have hgood : ¬(lim < 60 ∨ 3600 < lim) := by omega
  simp only [doorSetReply, be_two, flag1, List.cons_append, List.nil_append, num_be hd, num_be hroom, num_be hlim, readFin_val,
    readFlag_flag, if_neg hgood, hr]

end

/-- R79: the door changes its room, or is taken out of service. -/
def State.doorMoves (s : State) (d : Fin 24) (room : Fin 8) : Prop := (s.door d).room ≠ room

def State.doorLeaves (s : State) (d : Fin 24) (on : Bool) : Prop := (s.door d).inService = true ∧ on = false

/-- The staging lane of the door holds a member or a reservation. -/
def State.laneUsed (s : State) (d : Fin 24) : Prop := 0 < (s.stagingLane d).members.length + (s.stagingLane d).reserved

/-- The first bar: the door moves or leaves while its staging lane is used. -/
theorem doorSetRefusal_occupied_iff : ((decide ((s.door d).room ≠ room) || (s.door d).inService && !on)
    && decide (0 < (s.stagingLane d).load)) = true ↔ (s.doorMoves d room ∨ s.doorLeaves d on) ∧ s.laneUsed d := by
  simp [State.doorMoves, State.doorLeaves, State.laneUsed, StagingLane.load]

theorem doorSetRefusal_of_occupied (h : (s.doorMoves d room ∨ s.doorLeaves d on) ∧ s.laneUsed d) :
    s.doorSetRefusal d room on = some .occupied :=
  if_pos (doorSetRefusal_occupied_iff.2 h)

section
variable (hfree : ¬((s.doorMoves d room ∨ s.doorLeaves d on) ∧ s.laneUsed d))
include hfree

/-- Where the lane bars nothing, a door that moves while not closed, or leaves while not removable, is in the wrong state. -/
theorem doorSetRefusal_of_free : s.doorSetRefusal d room on =
    if decide ((s.door d).room ≠ room) && (s.door d).notClosed then some .doorState
    else if (s.door d).inService && !on && !(s.door d).removable then some .doorState
    else none :=
  if_neg (mt doorSetRefusal_occupied_iff.1 hfree)

theorem doorSetRefusal_of_doorState (hbad : (s.doorMoves d room ∧ (s.door d).notClosed = true)
    ∨ (s.doorLeaves d on ∧ (s.door d).removable = false)) : s.doorSetRefusal d room on = some .doorState := by
  rw [doorSetRefusal_of_free hfree]
  rcases hbad with ⟨hmoves, hopen⟩ | ⟨⟨hin, hoff⟩, hkept⟩
  · have hne : (s.door d).room ≠ room := hmoves
    exact if_pos (by simp [hne, hopen])
  · rw [hin, hoff, hkept]
    exact ite_self _

theorem doorSetRefusal_of_accepted (hmoves : ¬(s.doorMoves d room ∧ (s.door d).notClosed = true))
    (hleaves : ¬(s.doorLeaves d on ∧ (s.door d).removable = false)) : s.doorSetRefusal d room on = none := by
  rw [doorSetRefusal_of_free hfree, if_neg, if_neg]
  · simpa [State.doorLeaves] using hleaves
  · simpa [State.doorMoves] using hmoves

end

theorem Door.removable_iff (x : Door) : x.removable = true ↔
    (x.state = .vacant ∨ (x.state = .arrived ∧ x.session = none))
      ∨ (x.state = .offline ∧ ∃ st, x.remembered = some st ∧ (st = .vacant ∨ (st = .arrived ∧ x.session = none))) := by
  simp [Door.removable, Option.any_eq_true]

/-! ## DOOR_SET: the effects (R79, R168) -/

theorem setDoor_eq : setDoor d room lim on s =
    if (s.door d).room = room then setInService d on (s.updDoor d fun y => { y with room := room, openLimit := lim })
    else reevaluateHold room (reevaluateHold (s.door d).room
      (setInService d on (s.updDoor d fun y => { y with room := room, openLimit := lim }))) := rfl

theorem setInService_of_same (h : (s.door d).inService = on) : setInService d on s = s := if_pos h

/-- R168: a station whose configured condition changes is UNCONFIRMED, its missed count 0 and its slot empty. -/
def Station.unheard (y : Station) : Station := { y with link := .unconfirmed, missed := 0, slot := none, slotSent := false }

/-- A door taken into service is OFFLINE with VACANT remembered (log entry 37). -/
theorem setInService_of_in (hout : (s.door d).inService = false) (hvacant : (s.door d).state = .vacant) :
    setInService d true s = (doorEnter d .offline (s.updDoor d fun y =>
      { y with inService := true, remembered := some .vacant, last := {} })).updStation (.door d) Station.unheard := by
  simp only [setInService, hout, hvacant, configuredChanged]
  rfl

/-- A door taken out of service is VACANT, and its loss alarm is cleared. -/
theorem setInService_of_out (hin : (s.door d).inService = true) :
    let v := s.updDoor d fun y => { y with inService := false, remembered := none }
    setInService d false s = clearAlarm .stationLost (.station (.door d))
      ((if (s.door d).state = .vacant then v else doorEnter d .vacant v).updStation (.door d) Station.unheard) := by
  simp only [setInService, hin, configuredChanged]
  rfl

end

/-- Settles O43: the ranges, the two bars of the lane and of the door's state, then the fields with the change of service. -/
theorem doorSetConfigures : Obligations.DoorSetConfigures := by
  refine ⟨availableIn_of_group (g := .configure) rfl, ?_, ?_⟩
  · intro f s t d1 d0 r1 r0 m1 m0 b h hargs hrange
    exact exec_refused rfl h (hargs ▸ doorSetReply_of_range hrange t)
  · intro f s t d room lim on h hlim hargs x moves leaves laneUsed bare removable
    refine ⟨fun hbad => exec_refused rfl h (hargs ▸ doorSetReply_of_limit hlim hbad), fun hlow hhigh => ?_⟩
    have hkept : x.removable = false ↔ ¬removable := Bool.eq_false_iff.trans (not_congr (Door.removable_iff x))
    have refused {rc : ResultCode} (hr : t.doorSetRefusal d room on = some rc) : exec .doorSet s = refusedWith f rc t :=
      exec_refused rfl h (hargs ▸ doorSetReply_of_refused hlow hhigh hr)
    refine ⟨fun hchange hused => refused (doorSetRefusal_of_occupied ⟨hchange, hused⟩), fun hfree hbad => refused ?_, ?_⟩
    · exact doorSetRefusal_of_doorState hfree (hbad.imp_right (And.imp_right hkept.2))
    · intro hfree hmoves hleaves u unheard both
      have hnone : t.doorSetRefusal d room on = none :=
        doorSetRefusal_of_accepted hfree hmoves fun hbad => hleaves ⟨hbad.1, hkept.1 hbad.2⟩
      have hstored : exec .doorSet s = both (setInService d on u) :=
        exec_answered rfl h (hargs ▸ doorSetReply_of_accepted hlow hhigh hnone)
      have hdoor : u.door d = { x with room := room, openLimit := lim } := door_updDoor_same t d _
      rw [hstored]
      refine ⟨fun hsame => ?same, fun hout hon hvacant => ?enters, fun hin hoff => ?leaves⟩
      case same => rw [setInService_of_same (by rw [hdoor, hsame])]
      case enters =>
        subst hon
        rw [setInService_of_in (by rw [hdoor, hout]) (by rw [hdoor, hvacant])]
        rfl
      case leaves =>
        subst hoff
        intro v
        rw [setInService_of_out (by rw [hdoor, hin]), hdoor]
        rfl

end Sys2Proof.Machine
end

section
/-! SUPPORT. DOOR_SEAL, DOOR_OPEN, DOOR_CLOSE and DOOR_RELEASE: what DKC answers to an argument list of the request's form, check by
check (R81, R83, R85, R87). -/

namespace Sys2Proof.Machine

/-! ## DOOR_SEAL (R81) -/

theorem readDirection_of_ne {b : Byte} (h : ∀ dir : Direction, b ≠ dir.byte) : readDirection b = none := by
  have h0 : b.toNat ≠ 0 := fun e => h .inbound (BitVec.eq_of_toNat_eq e)
  have h1 : b.toNat ≠ 1 := fun e => h .outbound (BitVec.eq_of_toNat_eq e)
  unfold readDirection
  split
  next e => exact absurd e h0
  next e => exact absurd e h1
  next => rfl

section
variable {s : State} {d : Fin 24} {ref : BitVec 32} {dir : Direction} {n : Nat}

/-- A direction byte other than 00h and 01h is BAD_ARG (R201). -/
theorem doorSealReply_of_direction {b : Byte} (hdir : ∀ dir : Direction, b ≠ dir.byte) :
    doorSealReply (be 2 d.1 ++ be 4 ref.toNat ++ [b] ++ be 2 n) s = .error .badArg := by
  have hd : d.1 < 65536 := by omega
  simp only [doorSealReply, be_two, be_four, List.cons_append, List.nil_append, num_be hd, readFin_val, readDirection_of_ne hdir]

theorem doorSealReply_be (hn : n < 65536) : doorSealReply (be 2 d.1 ++ be 4 ref.toNat ++ [dir.byte] ++ be 2 n) s =
    if 60 < n then .error .badArg else sealDoor d ref dir n s := by
  have hd : d.1 < 65536 := by omega
  simp only [doorSealReply, be_two, be_four, List.cons_append, List.nil_append, num_be hd, num_be hn, readFin_val,
    readDirection_byte, beNat_four ref.isLt]
  rw [BitVec.ofNat_toNat, BitVec.setWidth_eq]

theorem sealDoor_of_state (h : (s.door d).state ≠ .arrived) : sealDoor d ref dir n s = .error .doorState := if_pos h

section
variable (h : (s.door d).state = .arrived)
include h

theorem sealDoor_of_other_session {y : Session} (hy : (s.door d).session = some y) (hother : y.direction ≠ dir ∨ y.ref ≠ ref) :
    sealDoor d ref dir n s = .error .badArg := by
  simp [sealDoor, h, hy, hother]

theorem sealDoor_of_session_ok (hok : ∀ y, (s.door d).session = some y → y.direction = dir ∧ y.ref = ref) :
    sealDoor d ref dir n s = started (placeDoor d .inflate (doorEnter d .sealing (sealSession d ref dir n s))) := by
  have hsame : ((s.door d).session.any fun y => y.direction ≠ dir || y.ref ≠ ref) = false := by
    cases hy : (s.door d).session with
    | none => rfl
    | some y =>
      obtain ⟨hdir, href⟩ := hok y hy
      simp [hdir, href]
  simp only [sealDoor, h, hsame]
  rfl

end

theorem sealSession_of_some {y : Session} (hy : (s.door d).session = some y) :
    sealSession d ref dir n s = s.updDoor d fun x => { x with session := some { y with expected := n } } := by
  simp only [sealSession, hy]

theorem sealSession_of_inbound (hnone : (s.door d).session = none) :
    sealSession d ref .inbound n s = s.updDoor d fun x => { x with session := some (newSession ref .inbound n) } := by
  simp only [sealSession, hnone]
  rfl

theorem sealSession_of_outbound (hnone : (s.door d).session = none) : sealSession d ref .outbound n s =
    sessionNotice d (s.updDoor d fun x => { x with session := some (newSession ref .outbound n) }) := by
  simp only [sealSession, hnone]
  rfl

/-- The session notice takes no time. -/
theorem clock_sealSession : (sealSession d ref dir n s).moc.clock = s.moc.clock := by
  unfold sealSession
  split
  next =>
    split
    next => exact congrArg (fun x : Fixed => x.moc.clock) (fixed_sessionNotice d _)
    next => rfl
  next => rfl

end

/-- Settles O44: the checks of DOOR_SEAL in their order, then the session by what the door holds. -/
theorem doorSealStartsTheSeal : Obligations.DoorSealStartsTheSeal := by
  refine ⟨availableIn_of_group (g := .run) rfl, ?_, ?_⟩
  · intro f s t d ref b n h hargs hdir
    exact exec_refused rfl h (hargs ▸ doorSealReply_of_direction hdir)
  · intro f s t d ref dir n h hn hargs starts
    have hreply : ownerReply .doorSeal f.args t = _ := hargs ▸ doorSealReply_be hn
    refine ⟨fun hbig => exec_refused rfl h (hreply.trans (if_pos hbig)), fun hle => ?_⟩
    have hsealDoor : ownerReply .doorSeal f.args t = sealDoor d ref dir n t := hreply.trans (if_neg (Nat.not_lt.2 hle))
    refine ⟨fun hstate => exec_refused rfl h (hsealDoor.trans (sealDoor_of_state hstate)), fun hstate => ?_⟩
    have hstarts (hok : ∀ y, (t.door d).session = some y → y.direction = dir ∧ y.ref = ref) :
        exec .doorSeal s = starts (sealSession d ref dir n t) := by
      refine (exec_answered rfl h (hsealDoor.trans (sealDoor_of_session_ok hstate hok))).trans ?_
      simp only [doorEnter, State.now, clock_sealSession]
      rfl
    refine ⟨fun y hy hother => ?other, fun y hy hdir href => ?kept, fun hnone => ?new⟩
    case other => exact exec_refused rfl h (hsealDoor.trans (sealDoor_of_other_session hstate hy hother))
    case kept =>
      rw [← sealSession_of_some hy]
      exact hstarts fun z hz => by
        rw [hy, Option.some.injEq] at hz
        exact hz ▸ ⟨hdir, href⟩
    case new =>
      have hnew := hstarts fun z hz => by rw [hnone] at hz; cases hz
      intro y u
      constructor
      · rintro rfl
        exact hnew.trans (congrArg starts (sealSession_of_inbound hnone))
      · rintro rfl
        exact hnew.trans (congrArg starts (sealSession_of_outbound hnone))

/-! ## DOOR_OPEN (R83) -/

section
variable {s : State} {d : Fin 24}

theorem openDoor_of_opened (h : (s.door d).state = .opened) : openDoor d s = .error .already := if_pos h

theorem openDoor_of_state (hopen : (s.door d).state ≠ .opened) (h : (s.door d).state ≠ .sealed) :
    openDoor d s = .error .doorState := by
  simp only [openDoor, if_neg hopen, if_pos h]

section
variable (h : (s.door d).state = .sealed)
include h

theorem openDoor_of_settling (hearly : s.moc.clock < (s.door d).closeCompleted + 5) : openDoor d s = .error .settling := by
  simp [openDoor, h, State.now, Config.settleTime, hearly]

section
variable (hsettled : (s.door d).closeCompleted + 5 ≤ s.moc.clock)
include hsettled

theorem openDoor_of_held (hheld : (s.hold (s.door d).room).state = .held ∨ (s.hold (s.door d).room).state = .forcedPending) :
    openDoor d s = .error .defrostHold := by
  simp [openDoor, h, State.now, Config.settleTime, Nat.not_lt.2 hsettled, hheld]

theorem openDoor_of_ready (hfree : ¬((s.hold (s.door d).room).state = .held ∨ (s.hold (s.door d).room).state = .forcedPending)) :
    openDoor d s = started (placeDoor d .leafUp (doorEnter d .opening s)) := by
  simp [openDoor, h, State.now, Config.settleTime, Nat.not_lt.2 hsettled, hfree]

end

end

/-! ## DOOR_CLOSE (R85) -/

/-- A FORCE byte other than 00h and 01h is BAD_ARG (R201). -/
theorem doorCloseReply_of_force {b : Byte} (hfalse : b ≠ 0#8) (htrue : b ≠ 1#8) :
    doorCloseReply (be 2 d.1 ++ [b]) s = .error .badArg := by
  have hd : d.1 < 65536 := by omega
  simp only [doorCloseReply, be_two, List.cons_append, List.nil_append, num_be hd, readFin_val, readFlag_of_ne hfalse htrue]

theorem doorCloseReply_be (force : Bool) : doorCloseReply (be 2 d.1 ++ flag1 force) s = closeDoor d force s := by
  have hd : d.1 < 65536 := by omega
  simp only [doorCloseReply, be_two, flag1, List.cons_append, List.nil_append, num_be hd, readFin_val, readFlag_flag]

theorem closeDoor_of_sealed {force : Bool} (h : (s.door d).state = .sealed) : closeDoor d force s = .error .already := if_pos h

theorem closeDoor_of_state {force : Bool} (hsealed : (s.door d).state ≠ .sealed) (h : (s.door d).state ≠ .opened) :
    closeDoor d force s = .error .doorState := by
  simp only [closeDoor, if_neg hsealed, if_pos h]

theorem closeDoor_of_used (h : (s.door d).state = .opened) (hused : (s.door d).useList ≠ []) :
    closeDoor d false s = .error .doorInUse := by
  simp [closeDoor, h, hused]

theorem closeDoor_of_open {force : Bool} (h : (s.door d).state = .opened) (hfree : (s.door d).useList = [] ∨ force = true) :
    closeDoor d force s = started (placeDoor d .leafDown (doorLeaveTo d .closing true s)) := by
  rcases hfree with hempty | hforce
  · simp [closeDoor, h, hempty]
  · simp [closeDoor, h, hforce]

/-! ## DOOR_RELEASE (R87) -/

theorem releaseDoor_of_state (h : (s.door d).state ≠ .sealed) : releaseDoor d s = .error .doorState := if_pos h

section
variable (h : (s.door d).state = .sealed)
include h

theorem releaseDoor_of_named (hnamed : 0 < s.ordersNaming d) : releaseDoor d s = .error .doorInUse := by
  simp [releaseDoor, h, hnamed]

section
variable (hnone : s.ordersNaming d = 0)
include hnone

theorem releaseDoor_of_not_empty (hfull : s.inboundAt d = true ∧ s.doorPallets d ≠ []) : releaseDoor d s = .error .notEmpty := by
  simp [releaseDoor, h, hnone, hfull]

theorem releaseDoor_of_ready (hempty : ¬(s.inboundAt d = true ∧ s.doorPallets d ≠ [])) :
    releaseDoor d s = started (placeDoor d .deflate (doorEnter d .unsealing s)) := by
  have hcheck : (s.inboundAt d && !(s.doorPallets d).isEmpty) = false := by simpa using hempty
  simp [releaseDoor, h, hnone, hcheck]

end

end

end

/-! ## The statement of DOOR_OPEN, DOOR_CLOSE and DOOR_RELEASE -/

/-- Settles O45: each request's checks in their order, the close with the departure from OPEN. -/
theorem doorOpenCloseRelease : Obligations.DoorOpenCloseRelease := by
  refine ⟨availableIn_of_group (g := .run) rfl, availableIn_of_group (g := .run) rfl, availableIn_of_group (g := .run) rfl, ?open_,
    ?force, ?close, ?release⟩
  case open_ =>
    intro f s t d h hargs x heldOff
    have hreply : ownerReply .doorOpen f.args t = openDoor d t := hargs ▸ oneFin_be (by omega) openDoor d t
    exact ⟨fun hopen => exec_refused rfl h (hreply.trans (openDoor_of_opened hopen)),
      fun hopen hstate => exec_refused rfl h (hreply.trans (openDoor_of_state hopen hstate)),
      fun hstate hearly => exec_refused rfl h (hreply.trans (openDoor_of_settling hstate hearly)),
      fun hstate hsettled hheld => exec_refused rfl h (hreply.trans (openDoor_of_held hstate hsettled hheld)),
      fun hstate hsettled hfree => exec_answered rfl h (hreply.trans (openDoor_of_ready hstate hsettled hfree))⟩
  case force =>
    intro f s t d b h hargs hfalse htrue
    exact exec_refused rfl h (hargs ▸ doorCloseReply_of_force hfalse htrue)
  case close =>
    intro f s t d force h hargs x
    have hreply : ownerReply .doorClose f.args t = closeDoor d force t := hargs ▸ doorCloseReply_be force
    refine ⟨fun hsealed => exec_refused rfl h (hreply.trans (closeDoor_of_sealed hsealed)),
      fun hsealed hstate => exec_refused rfl h (hreply.trans (closeDoor_of_state hsealed hstate)), ?_, ?_⟩
    · rintro hopen hused rfl
      exact exec_refused rfl h (hreply.trans (closeDoor_of_used hopen hused))
    · intro hopen hfree u
      refine (exec_answered rfl h (hreply.trans (closeDoor_of_open hopen hfree))).trans ?_
      rw [doorLeaveTo_of_open hopen]
      rfl
  case release =>
    intro f s t d h hargs notEmpty
    have hreply : ownerReply .doorRelease f.args t = releaseDoor d t := hargs ▸ oneFin_be (by omega) releaseDoor d t
    exact ⟨fun hstate => exec_refused rfl h (hreply.trans (releaseDoor_of_state hstate)),
      fun hstate hnamed => exec_refused rfl h (hreply.trans (releaseDoor_of_named hstate hnamed)),
      fun hstate hnone hfull => exec_refused rfl h (hreply.trans (releaseDoor_of_not_empty hstate hnone hfull)),
      fun hstate hnone hempty => exec_answered rfl h (hreply.trans (releaseDoor_of_ready hstate hnone hempty))⟩

end Sys2Proof.Machine
end

section
/-! SUPPORT. DOOR_READ and DOOR_CLEAR_FAULT, the latter by the last report (R92, R100). -/

namespace Sys2Proof.Machine

section
variable {s : State} {d : Fin 24}

/-! ## The resolution of a door from its last report (R92) -/

theorem resolveDoor_of_gone (h : (s.door d).last.trailer = false) : resolveDoor d s = trailerGone d s := by
  simp [resolveDoor, h]

theorem resolveDoor_of_sealed (h : (s.door d).last.trailer = true) (hok : (s.door d).last.sealOk = true)
    (hses : (s.door d).session ≠ none) : resolveDoor d s = confirmSeal d (doorEnter d .sealed s) := by
  simp [resolveDoor, h, hok, Option.isSome_iff_ne_none.2 hses]

theorem resolveDoor_of_arrived (h : (s.door d).last.trailer = true)
    (hno : ¬((s.door d).last.sealOk = true ∧ (s.door d).session ≠ none)) : resolveDoor d s =
      if (s.door d).last.sealOk then placeDoor d .deflate (doorEnter d .arrived s) else doorEnter d .arrived s := by
  have hcheck : ((s.door d).last.sealOk && (s.door d).session.isSome) = false := by
    simpa [Option.isSome_iff_ne_none] using hno
  simp [resolveDoor, h, hcheck]

/-! ## DOOR_CLEAR_FAULT (R92) -/

/-- The door with its fault cleared, before it is resolved. -/
def faultless (d : Fin 24) (s : State) : State := s.updDoor d fun x => { x with fault := none }

/-- Both alarms of the fault are cleared. -/
def clearFaultAlarms (d : Fin 24) (s : State) : State :=
  clearAlarm .trailerLost (.door d) (clearAlarm .doorFault (.door d) s)

theorem door_faultless : (faultless d s).door d = { s.door d with fault := none } := door_updDoor_same s d _

theorem reevaluateIfClosed_of_rest (h : (s.door d).state = .vacant ∨ (s.door d).state = .arrived ∨ (s.door d).state = .sealed) :
    reevaluateIfClosed d s = reevaluateHold (s.door d).room s := by
  simp [reevaluateIfClosed, Door.notClosed_of_rest h]

theorem clearDoorFault_eq (d : Fin 24) (s : State) : let t := resolveDoor d (faultless d s)
    clearDoorFault d s = reevaluateIfClosed d (if (t.door d).state = .vacant then clearFaultAlarms d t
      else doorOutcome d .faultCleared (clearFaultAlarms d t)) := rfl

theorem resolveFault_of_not_clear
    (h : ¬((s.door d).state = .fault ∧ (s.door d).last.leaf = .closed ∧ (s.door d).last.stationFault = 0#8)) :
    resolveFault d s = .error .doorState := by
  refine if_pos ?_
  by_contra hclear
  push Not at hclear
  exact h hclear

section
variable {v : State} {st : DoorState}
  (h : (s.door d).state = .fault ∧ (s.door d).last.leaf = .closed ∧ (s.door d).last.stationFault = 0#8)
  (hv : resolveDoor d (faultless d s) = v) (hstate : (v.door d).state = st) (hroom : (v.door d).room = (s.door d).room)
include h

theorem resolveFault_of_clear {w : State} (hw : clearDoorFault d s = w) : resolveFault d s = done [(w.door d).state.byte] w := by
  obtain ⟨hfault, hleaf, hquiet⟩ := h
  simp [resolveFault, hfault, hleaf, hquiet, hw]

include hv hstate hroom

/-- A door resolved to VACANT has its outcome from the trailer gone. -/
theorem resolveFault_of_vacant (hst : st = .vacant) :
    resolveFault d s = done [0#8] (reevaluateHold (s.door d).room (clearFaultAlarms d v)) := by
  subst hst
  have hw : clearDoorFault d s = reevaluateHold (s.door d).room (clearFaultAlarms d v) := by
    rw [clearDoorFault_eq, hv, if_pos hstate, ← hroom]
    exact reevaluateIfClosed_of_rest (.inl hstate)
  have hafter : (clearFaultAlarms d v).door d = v.door d := rfl
  rw [resolveFault_of_clear h hw, state_reevaluateHold, hafter, hstate]
  rfl

/-- A door resolved to SEALED or ARRIVED has the outcome FAULT_CLEARED. -/
theorem resolveFault_of_kept (hst : st = .arrived ∨ st = .sealed) : resolveFault d s =
    done [st.byte] (reevaluateHold (s.door d).room (doorOutcome d .faultCleared (clearFaultAlarms d v))) := by
  have hne : (v.door d).state ≠ .vacant := by rcases hst with h | h <;> simp [hstate, h]
  have hafter : (doorOutcome d .faultCleared (clearFaultAlarms d v)).door d = { v.door d with outcome := .faultCleared } :=
    door_doorOutcome _ d _
  have hw : clearDoorFault d s = reevaluateHold (s.door d).room (doorOutcome d .faultCleared (clearFaultAlarms d v)) := by
    rw [clearDoorFault_eq, hv, if_neg hne, reevaluateIfClosed_of_rest (.inr (by rw [hafter, hstate]; exact hst)), hafter, hroom]
  rw [resolveFault_of_clear h hw, state_reevaluateHold, hafter, hstate]

end

end

/-- Settles O46: DOOR_READ writes the records' fields, and DOOR_CLEAR_FAULT resolves the door by its last report. -/
theorem doorReadAndClearFault : Obligations.DoorReadAndClearFault := by
  refine ⟨availableIn_of_group (g := .always) rfl, availableIn_of_group (g := .run) rfl, ?read, ?clear⟩
  case read =>
    intro f s t d h hargs x session
    have hreply : ownerReply .doorRead f.args t = done (t.doorResults d) t :=
      hargs ▸ oneFin_be (by omega) (fun d s => done (s.doorResults d) s) d t
    exact exec_answered rfl h hreply
  case clear =>
    intro f s t d h hargs x clear u ends
    have hreply : ownerReply .doorClearFault f.args t = resolveFault d t := hargs ▸ oneFin_be (by omega) resolveFault d t
    have hdoor : u.door d = { x with fault := none } := door_faultless
    refine ⟨fun hbad => exec_refused rfl h (hreply.trans (resolveFault_of_not_clear hbad)), fun hclear htrailer hok hses => ?sealed,
      fun hclear htrailer hno => ?arrived, fun hclear hgone => ?vacant⟩
    case sealed =>
      have hv : resolveDoor d u = confirmSeal d (doorEnter d .sealed u) :=
        resolveDoor_of_sealed (by rwa [hdoor]) (by rwa [hdoor]) (by rwa [hdoor])
      have hafter : (confirmSeal d (doorEnter d .sealed u)).door d = _ := door_confirmSeal _ d
      rw [door_doorEnter, hdoor] at hafter
      exact exec_answered rfl h (hreply.trans (resolveFault_of_kept hclear hv (by rw [hafter]) (by rw [hafter]) (.inr rfl)))
    case arrived =>
      intro v
      have hv : resolveDoor d u = if x.last.sealOk then placeDoor d .deflate v else v := by
        have hresolve := resolveDoor_of_arrived (s := u) (d := d) (by rwa [hdoor]) (by rwa [hdoor])
        rwa [hdoor] at hresolve
      have hafter : (if x.last.sealOk then placeDoor d .deflate v else v).door d = v.door d := by split <;> rfl
      rw [door_doorEnter, hdoor] at hafter
      exact exec_answered rfl h (hreply.trans (resolveFault_of_kept hclear hv (by rw [hafter]) (by rw [hafter]) (.inl rfl)))
    case vacant =>
      have hv : resolveDoor d u = trailerGone d u := resolveDoor_of_gone (by rwa [hdoor])
      obtain ⟨hstate, hroom⟩ := door_trailerGone d u
      rw [hdoor] at hroom
      exact exec_answered rfl h (hreply.trans (resolveFault_of_vacant hclear hv hstate hroom rfl))

end Sys2Proof.Machine
end

section
/-! SUPPORT. The seal, leaf travel and unseal limits and the open-time wait at their expiry, and the entry to FAULT (R82, R84, R88,
R90). -/

namespace Sys2Proof.Machine

section
variable {s : State} {d : Fin 24} {code : FaultCode}

/-- R90: a door that was not OPEN enters FAULT without a departure. -/
theorem enterFault_of_not_open (hopen : (s.door d).state ≠ .opened) (hcode : code ≠ .trailerLost) : enterFault d code s =
    reevaluateIfClosed d (raiseAlarm .doorFault (.door d) (some (.faultCode code))
      (placeDoor d .stop (doorEnter d .fault (s.updDoor d fun x => { x with fault := some code })))) := by
  have hleave : doorLeaveTo d .fault true (s.updDoor d fun x => { x with fault := some code }) =
      doorEnter d .fault (s.updDoor d fun x => { x with fault := some code }) :=
    doorLeaveTo_of_not_open (by rwa [door_updDoor_same])
  simp only [enterFault, hleave, if_neg hcode]

theorem limitDue_iff {limit : Nat} {states : List DoorState} :
    s.limitDue d limit states = true ↔ (s.door d).state ∈ states ∧ (s.door d).stateSince + limit ≤ s.moc.clock := by
  rw [State.limitDue, Bool.and_eq_true, List.contains_iff_mem, decide_eq_true_iff]
  rfl

theorem openWaitOver_iff :
    s.openWaitOver d = true ↔ (s.door d).state = .opened ∧ ∃ w, (s.door d).openWaitDue = some w ∧ w ≤ s.moc.clock := by
  rw [State.openWaitOver, Bool.and_eq_true, decide_eq_true_iff, Option.any_eq_true]
  simp only [decide_eq_true_iff]
  rfl

end

/-- Settles O47: each row acts where its limit is due, and the two faults are entries to FAULT of a door that is not OPEN. -/
theorem doorLimitsExpire : Obligations.DoorLimitsExpire := by
  intro s d x faults past
  have hfaults {c : FaultCode} (hopen : x.state ≠ .opened) (hcode : c ≠ .trailerLost) :
      Host.Outcome.next (settle (enterFault d c s)) = faults c := by
    have hroom : ((doorEnter d .fault (s.updDoor d fun y => { y with fault := some c })).door d).room = x.room := by
      rw [door_doorEnter, door_updDoor_same]
    rw [enterFault_of_not_open hopen hcode, reevaluateIfClosed, door_raiseAlarm, door_placeDoor, hroom]
    rfl
  have hleaf : s.limitDue d 20 [.opening, .closing] = true ↔ (x.state = .opening ∨ x.state = .closing) ∧ past 20 :=
    limitDue_iff.trans (by simp [x, past])
  have hseal : s.limitDue d 60 [.sealing] = true ↔ x.state = .sealing ∧ past 60 := limitDue_iff.trans (by simp [x, past])
  have hunseal : s.limitDue d 60 [.unsealing] = true ↔ x.state = .unsealing ∧ past 60 := limitDue_iff.trans (by simp [x, past])
  refine ⟨fun hstate hdue => ?_, fun hno => ?_, fun hstate hdue => ?_, fun hno => ?_, fun hstate hdue => ?_, fun hno => ?_,
    fun w hopen hw hdue => ?_, fun hno => ?_⟩
  · exact congrArg Host.Outcome.next (if_pos (hseal.2 ⟨hstate, hdue⟩))
  · exact congrArg Host.Outcome.next (if_neg (mt hseal.1 hno))
  · have hopen : x.state ≠ .opened := by rcases hstate with h | h <;> simp [h]
    exact (congrArg Host.Outcome.next (if_pos (hleaf.2 ⟨hstate, hdue⟩))).trans (hfaults hopen (by decide))
  · exact congrArg Host.Outcome.next (if_neg (mt hleaf.1 hno))
  · have hopen : x.state ≠ .opened := by simp [hstate]
    exact (congrArg Host.Outcome.next (if_pos (hunseal.2 ⟨hstate, hdue⟩))).trans (hfaults hopen (by decide))
  · exact congrArg Host.Outcome.next (if_neg (mt hunseal.1 hno))
  · exact congrArg Host.Outcome.next (if_pos (openWaitOver_iff.2 ⟨hopen, w, hw, hdue⟩))
  · refine congrArg Host.Outcome.next (if_neg fun hover => ?_)
    obtain ⟨hopen, w, hw, hdue⟩ := openWaitOver_iff.1 hover
    exact absurd hdue (Nat.not_le.2 (hno w hopen hw))

end Sys2Proof.Machine
end

section
/-! SUPPORT. A door station report: the checks of R80 by the door's state, and what their rows do (R77, R82, R84, R88, R90, R91,
R101), and the reconciliation of an OFFLINE door (R94). -/

namespace Sys2Proof.Machine

/-! ## The checks, in order (R80) -/

section
variable {s : State} {d : Fin 24} {r : DoorReport} (hlast : (s.door d).last = r)
include hlast

theorem doorReportEffect_of_station_fault (h : r.stationFault ≠ 0#8) : doorReportEffect d s = enterFault d .stationFault s := by
  subst hlast
  exact if_pos h

section
variable (hquiet : r.stationFault = 0#8)
include hquiet

theorem doorReportEffect_of_vacant_open (hstate : (s.door d).state = .vacant) (hleaf : r.leaf ≠ .closed) :
    doorReportEffect d s = enterFault d .uncommandedLeaf s := by
  simp [doorReportEffect, hlast, hquiet, hstate, hleaf]

/-! ### Without a trailer -/

section
variable (hgone : r.trailer = false)
include hgone

theorem doorReportEffect_of_arrived_gone (hstate : (s.door d).state = .arrived) : doorReportEffect d s = trailerGone d s := by
  simp [doorReportEffect, hlast, hquiet, hgone, hstate]

theorem doorReportEffect_of_trailer_lost (hstate : (s.door d).state = .sealing ∨ (s.door d).state = .sealed
    ∨ (s.door d).state = .opening ∨ (s.door d).state = .opened ∨ (s.door d).state = .closing ∨ (s.door d).state = .unsealing) :
    doorReportEffect d s = enterFault d .trailerLost s := by
  rcases hstate with h | h | h | h | h | h <;> simp [doorReportEffect, hlast, hquiet, hgone, h]

theorem doorReportEffect_of_vacant_gone (hstate : (s.door d).state = .vacant) (hleaf : r.leaf = .closed) :
    doorReportEffect d s = s := by
  simp [doorReportEffect, hlast, hquiet, hgone, hstate, hleaf]

end

/-! ### With a trailer -/

section
variable (hhere : r.trailer = true)
include hhere

theorem doorReportEffect_of_seal_made (hstate : (s.door d).state = .sealing) (hok : r.sealOk = true) :
    doorReportEffect d s = confirmSeal d (doorOutcome d .sealOk (doorEnter d .sealed s)) := by
  simp [doorReportEffect, hlast, hquiet, hhere, hstate, hok]

theorem doorReportEffect_of_seal_ended (hstate : (s.door d).state = .unsealing) (hok : r.sealOk = false) :
    doorReportEffect d s = unsealComplete d s := by
  simp [doorReportEffect, hlast, hquiet, hhere, hstate, hok]

theorem doorReportEffect_of_seal_lost (hstate : (s.door d).state = .sealed ∨ (s.door d).state = .opening
    ∨ (s.door d).state = .opened ∨ (s.door d).state = .closing) (hok : r.sealOk = false) :
    doorReportEffect d s = enterFault d .sealLost s := by
  rcases hstate with h | h | h | h <;> simp [doorReportEffect, hlast, hquiet, hhere, h, hok]

/-- The seal as the door's state awaits it, in the states that need the leaf closed. -/
theorem doorReportEffect_of_needs_closed
    (hstate : ((s.door d).state = .sealing ∧ r.sealOk = false) ∨ ((s.door d).state = .unsealing ∧ r.sealOk = true)
      ∨ ((s.door d).state = .sealed ∧ r.sealOk = true) ∨ (s.door d).state = .arrived) :
    doorReportEffect d s = if r.leaf = .closed then s else enterFault d .uncommandedLeaf s := by
  rcases hstate with ⟨h, hok⟩ | ⟨h, hok⟩ | ⟨h, hok⟩ | h
  case inr.inr.inr => simp [doorReportEffect, hlast, hquiet, hhere, h]
  all_goals simp [doorReportEffect, hlast, hquiet, hhere, h, hok]

theorem doorReportEffect_of_vacant_arrival (hstate : (s.door d).state = .vacant) (hleaf : r.leaf = .closed) :
    doorReportEffect d s = doorEnter d .arrived s := by
  simp [doorReportEffect, hlast, hquiet, hhere, hstate, hleaf]

section
variable (hok : r.sealOk = true)
include hok

theorem doorReportEffect_of_opened (hstate : (s.door d).state = .opened) :
    doorReportEffect d s = if r.leaf = .opened then s else enterFault d .uncommandedLeaf s := by
  simp [doorReportEffect, hlast, hquiet, hhere, hok, hstate]

theorem doorReportEffect_of_opening (hstate : (s.door d).state = .opening) :
    doorReportEffect d s = if r.leaf = .opened then enterOpen d (doorOutcome d .opened s) else s := by
  simp [doorReportEffect, hlast, hquiet, hhere, hok, hstate]

theorem doorReportEffect_of_closing (hstate : (s.door d).state = .closing) : doorReportEffect d s =
    if r.leaf = .closed then reevaluateHold (s.door d).room
      ((doorOutcome d .closed (doorEnter d .sealed s)).updDoor d fun y => { y with closeCompleted := s.now })
    else s := by
  simp [doorReportEffect, hlast, hquiet, hhere, hok, hstate]

end

end

end

end

section
variable {s : State} {d : Fin 24} {r : DoorReport} (hlast : (s.door d).last = r) (hquiet : r.stationFault = 0#8)
  (hleaf : r.leaf = .closed)
include hlast hquiet hleaf

theorem doorReportEffect_of_arrived_shut (hstate : (s.door d).state = .arrived) :
    doorReportEffect d s = if r.trailer then s else trailerGone d s := by
  cases htrailer : r.trailer with
  | false => exact doorReportEffect_of_arrived_gone hlast hquiet htrailer hstate
  | true =>
    exact (doorReportEffect_of_needs_closed hlast hquiet htrailer (.inr (.inr (.inr hstate)))).trans (if_pos hleaf)

theorem doorReportEffect_of_vacant_shut (hstate : (s.door d).state = .vacant) :
    doorReportEffect d s = if r.trailer then doorEnter d .arrived s else s := by
  cases htrailer : r.trailer with
  | false => exact doorReportEffect_of_vacant_gone hlast hquiet htrailer hstate hleaf
  | true => exact doorReportEffect_of_vacant_arrival hlast hquiet htrailer hstate hleaf

end

/-! ## The report by the door's state -/

/-- The report becomes the last report. -/
def storeReport (d : Fin 24) (r : DoorReport) (s : State) : State := s.updDoor d fun x => { x with last := r }

section
variable {s : State} {d : Fin 24} {r : DoorReport}

theorem takeDoorReport_of_acting (hoff : (s.door d).state ≠ .offline) (hfault : (s.door d).state ≠ .fault) :
    takeDoorReport d r s = doorReportEffect d (storeReport d r s) := by
  unfold takeDoorReport
  split
  next h => exact absurd h hoff
  next h => exact absurd h hfault
  next => rfl

theorem takeDoorReport_of_offline (h : (s.door d).state = .offline) : takeDoorReport d r s = reconcileDoor d (storeReport d r s) := by
  simp only [takeDoorReport, h]
  rfl

theorem takeDoorReport_of_fault (h : (s.door d).state = .fault) : takeDoorReport d r s =
    if (s.door d).notClosed = ((storeReport d r s).door d).notClosed then storeReport d r s
    else reevaluateHold (s.door d).room (storeReport d r s) := by
  simp only [takeDoorReport, h]
  rfl

end

/-! ## Trailer gone and the end of an unseal (R88, R91) -/

section
variable {s : State} {d : Fin 24}

theorem trailerGone_eq (d : Fin 24) (s : State) : let gone := retireDoorSet d (withdrawTrailerGone d s)
    trailerGone d s = clearAlarm .sealFailed (.door d) (doorOutcome d (.leftOnTrailer gone.1)
      (doorEnter d .vacant (gone.2.updDoor d fun x => { x with session := none }))) := rfl

theorem unsealComplete_of_outbound (h : (s.door d).session.any (·.direction = .outbound) = true) : unsealComplete d s =
    doorOutcome d (.released (retireDoorSet d (withdrawTrailerGone d s)).1)
      (doorEnter d .arrived ((retireDoorSet d (withdrawTrailerGone d s)).2.updDoor d fun x => { x with session := none })) := by
  simp only [unsealComplete, h]
  rfl

theorem unsealComplete_of_other (h : (s.door d).session.any (·.direction = .outbound) = false) : unsealComplete d s =
    doorOutcome d (.released 0) (doorEnter d .arrived ((withdrawTrailerGone d s).updDoor d fun x => { x with session := none })) := by
  simp only [unsealComplete, h]
  rfl

/-- R71: the QUEUED and GRANTED orders naming the door are withdrawn in creation order. -/
theorem withdrawTrailerGone_eq (d : Fin 24) (s : State) : withdrawTrailerGone d s =
    (s.orders.filter fun y => (y.2.state = .queued ∨ y.2.state = .granted)
      ∧ (y.2.origin = .atDoor d ∨ y.2.dest = .atDoor d)).foldl (fun u y => withdrawOrder .withdrawnTrailerGone y.1 u) s := by
  unfold withdrawTrailerGone State.forEach
  rw [List.foldl_map]
  congr 1
  exact List.filter_congr fun y _ => by simp

theorem retirePallet_of_stale {h : Handle} (hp : s.pallet? h = none) : retirePallet h s = s := by
  unfold retirePallet
  rw [hp]

end

/-! ## Reconciliation (R94) -/

/-- The door with its remembered state taken. -/
def unremembered (d : Fin 24) (s : State) : State := s.updDoor d fun x => { x with remembered := none }

theorem reconcileAgrees_opened_iff (r : DoorReport) : reconcileAgrees .opened r = true ↔
    r.leaf = .opened ∧ r.sealOk = true ∧ r.trailer = true ∧ r.stationFault = 0#8 := by
  simp [reconcileAgrees, and_assoc]

theorem reconcileAgrees_sealed_iff (r : DoorReport) : reconcileAgrees .sealed r = true ↔
    r.leaf = .closed ∧ r.sealOk = true ∧ r.trailer = true ∧ r.stationFault = 0#8 := by
  simp [reconcileAgrees, and_assoc]

/-- Every other remembered state but FAULT agrees with a closed leaf and no station fault. -/
theorem reconcileAgrees_shut_iff {st : DoorState} (r : DoorReport) (hst : st ∉ [DoorState.opened, .sealed, .fault]) :
    reconcileAgrees st r = true ↔ r.leaf = .closed ∧ r.stationFault = 0#8 := by
  cases st <;> simp_all [reconcileAgrees]

/-- The states a sequence passes through (R94): resolved by the table of R92. -/
def transientStates : List DoorState := [.sealing, .opening, .closing, .unsealing]

theorem not_kept_of_transient : ∀ st ∈ transientStates, st ∉ [DoorState.opened, .sealed, .fault] := by decide

section
variable {s : State} {d : Fin 24} {st : DoorState} (hrem : (s.door d).remembered = some st)
include hrem

theorem reconcileDoor_of_differs (h : ¬reconcileAgrees st (s.door d).last = true) :
    reconcileDoor d s = enterFault d .reconcile (unremembered d s) := by
  simp only [reconcileDoor, hrem, Option.getD_some, Bool.eq_false_iff.2 h]
  rfl

section
variable (h : reconcileAgrees st (s.door d).last = true)
include h

theorem reconcileDoor_of_opened (hst : st = .opened) :
    reconcileDoor d s = reevaluateIfClosed d (enterOpen d (unremembered d s)) := by
  subst hst
  simp only [reconcileDoor, hrem, Option.getD_some, h]
  rfl

theorem reconcileDoor_of_sealed (hst : st = .sealed) :
    reconcileDoor d s = reevaluateIfClosed d (doorEnter d .sealed (unremembered d s)) := by
  subst hst
  simp only [reconcileDoor, hrem, Option.getD_some, h]
  rfl

theorem reconcileDoor_of_arrived (hst : st = .arrived) : reconcileDoor d s =
    reevaluateIfClosed d (doorReportEffect d (if (s.door d).last.sealOk then
      placeDoor d .deflate (doorEnter d .arrived (unremembered d s)) else doorEnter d .arrived (unremembered d s))) := by
  subst hst
  simp only [reconcileDoor, hrem, Option.getD_some, h]
  rfl

theorem reconcileDoor_of_vacant (hst : st = .vacant) :
    reconcileDoor d s = reevaluateIfClosed d (doorReportEffect d (doorEnter d .vacant (unremembered d s))) := by
  subst hst
  simp only [reconcileDoor, hrem, Option.getD_some, h]
  rfl

theorem reconcileDoor_of_fault (hst : st = .fault) :
    reconcileDoor d s = reevaluateIfClosed d (doorEnter d .fault (unremembered d s)) := by
  subst hst
  simp only [reconcileDoor, hrem, Option.getD_some, h]
  rfl

theorem reconcileDoor_of_transient (hst : st ∈ transientStates) :
    reconcileDoor d s = reevaluateIfClosed d (resolveDoor d (unremembered d s)) := by
  simp only [transientStates, List.mem_cons, List.not_mem_nil, or_false] at hst
  rcases hst with rfl | rfl | rfl | rfl <;>
  · simp only [reconcileDoor, hrem, Option.getD_some, h]
    rfl

end

end

/-! ## The statement -/

section
variable {s : State} {d : Fin 24} {r : DoorReport} {received : List Byte} (h : Answers (.door d) (.door r) received s)
include h

theorem exec_doorStatus : exec (.doorStatus received) s = reported .door (takeDoorReport d r (takeDelivery (.door d) s)) :=
  exec_row_of_answers h

theorem exec_doorStatus_of_acting {v : State} (hstate : (s.door d).state ≠ .offline ∧ (s.door d).state ≠ .fault)
    (hv : doorReportEffect d (storeReport d r (takeDelivery (.door d) s)) = v) :
    exec (.doorStatus received) s = reported .door v := by
  obtain ⟨hoff, hfault⟩ := hstate
  have htaken : takeDoorReport d r (takeDelivery (.door d) s) = v :=
    (takeDoorReport_of_acting (s := takeDelivery (.door d) s) hoff hfault).trans hv
  rw [exec_doorStatus h, htaken]

theorem exec_doorStatus_of_offline (hstate : (s.door d).state = .offline) :
    exec (.doorStatus received) s = reported .door (reconcileDoor d (storeReport d r (takeDelivery (.door d) s))) := by
  have htaken : takeDoorReport d r (takeDelivery (.door d) s) = _ :=
    takeDoorReport_of_offline (s := takeDelivery (.door d) s) hstate
  rw [exec_doorStatus h, htaken]

theorem exec_doorStatus_of_fault (hstate : (s.door d).state = .fault) :
    let u := storeReport d r (takeDelivery (.door d) s)
    exec (.doorStatus received) s = reported .door
      (if (s.door d).notClosed = (u.door d).notClosed then u else reevaluateHold (s.door d).room u) := by
  have htaken : takeDoorReport d r (takeDelivery (.door d) s) = _ :=
    takeDoorReport_of_fault (s := takeDelivery (.door d) s) hstate
  rw [exec_doorStatus h, htaken]
  rfl

end

/-- Settles O48: the checks of a report by the door's state, what each row does, and the reconciliation by remembered state. -/
theorem doorReportsActByState : Obligations.DoorReportsActByState := by
  refine ⟨?report, ?entries, ?fault, ?gone, ?retired, ?reconciled⟩
  case report =>
    intro d received s r h u st becomes quiet here
    have hdoor : u.door d = { s.door d with last := r } := door_updDoor_same _ d _
    have hlast : (u.door d).last = r := by rw [hdoor]
    have hstate : (u.door d).state = st := by rw [hdoor]
    have hroom : (u.door d).room = (s.door d).room := by rw [hdoor]
    have acts {v : State} (hst : st ≠ .offline ∧ st ≠ .fault) (hv : doorReportEffect d u = v) : becomes v :=
      exec_doorStatus_of_acting h hst hv
    have hoffline : st = .offline → becomes (reconcileDoor d u) := exec_doorStatus_of_offline h
    have hfault : st = .fault →
        becomes (if (s.door d).notClosed = (u.door d).notClosed then u else reevaluateHold (s.door d).room u) :=
      exec_doorStatus_of_fault h
    clear_value st
    refine ⟨fun hloud hoff hfault => acts ⟨hoff, hfault⟩ (doorReportEffect_of_station_fault hlast hloud), ?trailer, ?made, ?ended,
      ?lost, ?leaf, ?vacant, ?opened, ?opening, ?closing, ?arrival, hfault, hoffline⟩
    case trailer =>
      intro hquiet hgone
      refine ⟨?_, fun hst => ?_, ?_⟩
      · rintro rfl
        exact acts (by decide) (doorReportEffect_of_arrived_gone hlast hquiet hgone hstate)
      · have hacts : st ≠ .offline ∧ st ≠ .fault := by rcases hst with rfl | rfl | rfl | rfl | rfl | rfl <;> decide
        exact acts hacts (doorReportEffect_of_trailer_lost hlast hquiet hgone (hstate.symm ▸ hst))
      · rintro rfl hleaf
        exact acts (by decide) (doorReportEffect_of_vacant_gone hlast hquiet hgone hstate hleaf)
    case made =>
      rintro ⟨hquiet, hhere⟩ rfl hok
      exact acts (by decide) (doorReportEffect_of_seal_made hlast hquiet hhere hstate hok)
    case ended =>
      rintro ⟨hquiet, hhere⟩ rfl hok
      exact acts (by decide) (doorReportEffect_of_seal_ended hlast hquiet hhere hstate hok)
    case lost =>
      rintro ⟨hquiet, hhere⟩ hst hok
      have hacts : st ≠ .offline ∧ st ≠ .fault := by rcases hst with rfl | rfl | rfl | rfl <;> decide
      exact acts hacts (doorReportEffect_of_seal_lost hlast hquiet hhere (hstate.symm ▸ hst) hok)
    case leaf =>
      rintro ⟨hquiet, hhere⟩ hst
      have hacts : st ≠ .offline ∧ st ≠ .fault := by rcases hst with ⟨rfl, -⟩ | ⟨rfl, -⟩ | ⟨rfl, -⟩ | rfl <;> decide
      have heffect := doorReportEffect_of_needs_closed hlast hquiet hhere (hstate.symm ▸ hst)
      exact ⟨fun hleaf => acts hacts (heffect.trans (if_neg hleaf)), fun hleaf => acts hacts (heffect.trans (if_pos hleaf))⟩
    case vacant =>
      rintro hquiet rfl hleaf
      exact acts (by decide) (doorReportEffect_of_vacant_open hlast hquiet hstate hleaf)
    case opened =>
      rintro ⟨hquiet, hhere⟩ rfl hok
      have heffect := doorReportEffect_of_opened hlast hquiet hhere hok hstate
      exact ⟨fun hleaf => acts (by decide) (heffect.trans (if_neg hleaf)),
        fun hleaf => acts (by decide) (heffect.trans (if_pos hleaf))⟩
    case opening =>
      rintro ⟨hquiet, hhere⟩ rfl hok
      have heffect := doorReportEffect_of_opening hlast hquiet hhere hok hstate
      exact ⟨fun hleaf => acts (by decide) (heffect.trans (if_pos hleaf)),
        fun hleaf => acts (by decide) (heffect.trans (if_neg hleaf))⟩
    case closing =>
      rintro ⟨hquiet, hhere⟩ rfl hok
      have heffect := doorReportEffect_of_closing hlast hquiet hhere hok hstate
      rw [hroom] at heffect
      exact ⟨fun hleaf => acts (by decide) (heffect.trans (if_pos hleaf)),
        fun hleaf => acts (by decide) (heffect.trans (if_neg hleaf))⟩
    case arrival =>
      rintro ⟨hquiet, hhere⟩ rfl hleaf
      exact acts (by decide) (doorReportEffect_of_vacant_arrival hlast hquiet hhere hstate hleaf)
  case entries =>
    intro d s
    exact ⟨fun st => rfl, fun out => rfl, fun c => rfl, rfl, rfl⟩
  case fault =>
    intro d code s t departed v u w
    have hleave : doorLeaveTo d .fault true (s.updDoor d fun x => { x with fault := some code }) = v := by
      have hdoor : (s.updDoor d fun x => { x with fault := some code }).door d = { s.door d with fault := some code } :=
        door_updDoor_same s d _
      by_cases hopen : (s.door d).state = .opened
      · rw [doorLeaveTo_of_open (by rwa [hdoor]), hdoor]
        exact (if_pos hopen).symm
      · rw [doorLeaveTo_of_not_open (by rwa [hdoor])]
        exact (if_neg hopen).symm
    simp only [enterFault, hleave]
    rfl
  case gone =>
    intro d s named t retired bare out
    have ht : withdrawTrailerGone d s = t := withdrawTrailerGone_eq d s
    have hout : (s.door d).session.any (·.direction = .outbound) = true ↔ out := by simp [out, Option.any_eq_true]
    refine ⟨?_, fun h => ?_, fun h => ?_⟩
    · rw [trailerGone_eq, ht]
      rfl
    · rw [unsealComplete_of_outbound (hout.2 h), ht]
      rfl
    · rw [unsealComplete_of_other (Bool.eq_false_iff.2 (mt hout.1 h)), ht]
  case retired =>
    intro h s
    exact ⟨retirePallet_of_stale, fun p => retirePallet_of_live⟩
  case reconciled =>
    intro d s x r t ends differs shut whole arrives
    have hends {v : State} (hv : reconcileDoor d s = reevaluateIfClosed d v) : ends v := hv
    have hdiffers {st : DoorState} (hrem : x.remembered = some st) (hno : ¬reconcileAgrees st r = true) : differs :=
      reconcileDoor_of_differs hrem hno
    have hdoor : t.door d = { x with remembered := none } := door_updDoor_same s d _
    refine
      ⟨fun hrem => ⟨fun hok => ?opened, fun hno => hdiffers hrem (mt (reconcileAgrees_opened_iff r).1 hno)⟩,
      fun hrem => ⟨fun hok => ?sealed, fun hno => hdiffers hrem (mt (reconcileAgrees_sealed_iff r).1 hno)⟩,
      fun hrem => ⟨fun hok => ?arrived, fun hno => hdiffers hrem (mt (reconcileAgrees_shut_iff r (by decide)).1 hno)⟩,
      fun hrem => ⟨fun hok => ?vacant, fun hno => hdiffers hrem (mt (reconcileAgrees_shut_iff r (by decide)).1 hno)⟩,
      fun st hst hrem => ?transient, fun hrem => reconcileDoor_of_fault hrem rfl rfl⟩
    case opened => exact reconcileDoor_of_opened hrem ((reconcileAgrees_opened_iff r).2 hok) rfl
    case sealed => exact reconcileDoor_of_sealed hrem ((reconcileAgrees_sealed_iff r).2 hok) rfl
    case arrived =>
      have hafter : (arrives t).door d = (doorEnter d .arrived t).door d := by
        simp only [arrives]
        split <;> rfl
      rw [door_doorEnter, hdoor] at hafter
      have heffect : doorReportEffect d (arrives t) = if r.trailer then arrives t else trailerGone d (arrives t) :=
        doorReportEffect_of_arrived_shut (by rw [hafter]) hok.2 hok.1 (by rw [hafter])
      rw [← heffect]
      exact hends (reconcileDoor_of_arrived hrem ((reconcileAgrees_shut_iff r (by decide)).2 hok) rfl)
    case vacant =>
      have hafter := door_doorEnter t d .vacant
      rw [hdoor] at hafter
      have heffect := doorReportEffect_of_vacant_shut (r := r) (by rw [hafter]) hok.2 hok.1 (by rw [hafter])
      rw [← heffect]
      exact hends (reconcileDoor_of_vacant hrem ((reconcileAgrees_shut_iff r (by decide)).2 hok) rfl)
    case transient =>
      have hlast : (t.door d).last = r := by rw [hdoor]
      have hsession : (t.door d).session = x.session := by rw [hdoor]
      have hagrees : reconcileAgrees st r = true ↔ shut := reconcileAgrees_shut_iff r (not_kept_of_transient st hst)
      refine ⟨fun hok => ?_, fun hno => hdiffers hrem (mt hagrees.1 hno)⟩
      have hresolved : reconcileDoor d s = reevaluateIfClosed d (resolveDoor d t) :=
        reconcileDoor_of_transient hrem (hagrees.2 hok) hst
      refine ⟨fun hgone => ?_, fun hhere hseal hses => ?_, fun hhere hno => ?_⟩
      · rw [resolveDoor_of_gone (by rwa [hlast])] at hresolved
        exact hresolved
      · rw [resolveDoor_of_sealed (by rwa [hlast]) (by rwa [hlast]) (by rwa [hsession])] at hresolved
        exact hresolved
      · rw [resolveDoor_of_arrived (by rwa [hlast]) (by rwa [hlast, hsession]), hlast] at hresolved
        exact hresolved

end Sys2Proof.Machine
end

section
/-! SUPPORT. PROBE_SET, THERMAL_SET and the two temperature reads: what TSU answers to an argument list of the request's form (R107,
R114, R119), and the hub's new condition (R168). -/

namespace Sys2Proof.Machine

/-! ## A station whose configured condition may change (R168) -/

theorem configuredChanged_of_same {st : StationId} {before after : Bool} (h : before = after) (s : State) :
    configuredChanged st before after s = s := if_pos h

/-- The station starts anew, and the loss alarm of one that was configured is cleared. -/
theorem configuredChanged_of_ne {st : StationId} {before after : Bool} (h : before ≠ after) (s : State) :
    configuredChanged st before after s =
      if before then clearAlarm (lossAlarm st).1 (lossAlarm st).2 (s.updStation st Station.unheard)
      else s.updStation st Station.unheard := if_neg h

/-- Whether a hub is configured is read from the fitted flags, which a derivation keeps. -/
theorem configured_hub_deriveRoom (r q : Fin 8) (s : State) : (deriveRoom r s).configured (.hub q) = s.configured (.hub q) := by
  have hfitted (p : Fin 32) : ((deriveRoom r s).probe p).fitted = (s.probe p).fitted := by
    rw [probe_deriveRoom]
    split <;> rfl
  simp only [State.configured, hfitted]

/-! ## PROBE_SET (R107) -/

/-- A flag byte above 01h is BAD_ARG. -/
theorem probeSetReply_of_flag {p1 p0 a b : Byte} (h : 1 < a.toNat ∨ 1 < b.toNat) (s : State) :
    probeSetReply [p1, p0, a, b] s = .error .badArg := by
  simp only [probeSetReply]
  split
  next hfitted hcoil =>
    rcases h with ha | hb
    · exact absurd (hfitted.symm.trans (readFlag_of_gt ha)) (Option.some_ne_none _)
    · exact absurd (hcoil.symm.trans (readFlag_of_gt hb)) (Option.some_ne_none _)
  next => rfl

section
variable (p : Fin 32) (fitted coil : Bool) (s : State)

theorem probeSetReply_be :
    probeSetReply (be 2 p.1 ++ flag1 fitted ++ flag1 coil) s = done [] (setProbe p fitted coil s) := by
  have hp : p.1 < 65536 := by omega
  simp only [probeSetReply, be_two, flag1, List.cons_append, List.nil_append, num_be hp, readFin_val, readFlag_flag]

/-- The flags stored, the alarm of a probe no longer fitted cleared, and the room temperature derived. -/
def refitProbe : State :=
  let u := s.updProbe p fun x => x.refit fitted coil
  deriveRoom (probeRoom p) (if (s.probe p).fitted = true ∧ fitted = false then clearAlarm .probeFault (.probe p) u else u)

theorem setProbe_eq : setProbe p fitted coil s =
    configuredChanged (.hub (probeRoom p)) (s.configured (.hub (probeRoom p)))
      ((refitProbe p fitted coil s).configured (.hub (probeRoom p))) (refitProbe p fitted coil s) := by
  simp only [setProbe, refitProbe, configured_hub_deriveRoom, Bool.and_eq_true, Bool.not_eq_true']

end

/-! ## THERMAL_SET (R114) -/

theorem thermalSetReply_be {r : Fin 8} {lim : Int} {grace mask : Nat} (hlow : -32768 ≤ lim) (hhigh : lim ≤ 32767)
    (hgrace : grace < 65536) (hmask : mask < 65536) (s : State) :
    thermalSetReply (be 2 r.1 ++ temp2 lim ++ be 2 grace ++ be 2 mask) s =
      if lim < -500 ∨ 500 < lim ∨ grace < 60 ∨ 3600 < grace ∨ 3600 < mask then .error .badArg
      else done [] (s.updThermal r fun x => { x with limit := lim, grace := grace, mask := mask }) := by
  have hr : r.1 < 65536 := by omega
  simp only [thermalSetReply, be_two, temp2, List.cons_append, List.nil_append, num_be hr, num_be hgrace, num_be hmask, readFin_val,
    temp_be hlow hhigh]

/-! ## The statement -/

/-- Settles O49: each request by its argument list, PROBE_SET by whether its hub's configured condition changes. -/
theorem thermalRequestsAnswer : Obligations.ThermalRequestsAnswer := by
  refine ⟨availableIn_of_group (g := .configure) rfl, availableIn_of_group (g := .thermal) rfl,
    availableIn_of_group (g := .always) rfl, availableIn_of_group (g := .always) rfl, ?flags, ?probe, ?limits, ?room, ?reading⟩
  case flags =>
    intro f s t p1 p0 a b h hargs hflag
    exact exec_refused rfl h (hargs ▸ probeSetReply_of_flag hflag t)
  case probe =>
    intro f s t p fitted coil h hargs x hub status u v
    have hset : exec .probeSet s = answered f .ok [] (configuredChanged hub (t.configured hub) (v.configured hub) v) := by
      have hreply : ownerReply .probeSet f.args t = done [] (setProbe p fitted coil t) := hargs ▸ probeSetReply_be p fitted coil t
      rw [setProbe_eq] at hreply
      exact exec_answered rfl h hreply
    refine ⟨fun hsame => ?_, fun hne => ?_⟩
    · rw [hset, configuredChanged_of_same hsame]
    · rw [hset, configuredChanged_of_ne hne]
      rfl
  case limits =>
    intro f s t r lim grace mask h hlow hhigh hgrace hmask hargs good
    have hreply : ownerReply .thermalSet f.args t = _ := hargs ▸ thermalSetReply_be hlow hhigh hgrace hmask t
    have hbad : ¬good ↔ lim < -500 ∨ 500 < lim ∨ grace < 60 ∨ 3600 < grace ∨ 3600 < mask := by
      simp only [good]
      omega
    exact ⟨fun hgood => exec_answered rfl h (hreply.trans (if_neg fun hout => hbad.2 hout hgood)),
      fun hnot => exec_refused rfl h (hreply.trans (if_pos (hbad.1 hnot)))⟩
  case room =>
    intro f s t r h hargs x
    exact exec_answered rfl h (hargs ▸ oneFin_be (by omega) (fun r s => done (s.roomTempResults r) s) r t)
  case reading =>
    intro f s t p h hargs x
    exact exec_answered rfl h (hargs ▸ oneFin_be (by omega) (fun p s => done (s.probeResults p) s) p t)

end Sys2Proof.Machine
end

section
/-! SUPPORT. A probe hub report: its entries (R104, R106) and the derivation of the room temperature (R109). -/

namespace Sys2Proof.Machine

/-! ## One entry (R104, R106) -/

/-- R104: the status that an entry gives. -/
def ProbeEntry.status (en : ProbeEntry) : ProbeStatus :=
  match en.indication with
  | .present => if -500 ≤ en.reading ∧ en.reading ≤ 500 then .ok else .outOfRange
  | .sensorFault => .flagged
  | .notPresent => .absent

theorem applyEntry_eq (en : ProbeEntry) (x : Probe) : applyEntry en x =
    { x with status := en.status, reading := if en.indication = .present then en.reading else x.reading } := by
  obtain ⟨reading, indication⟩ := en
  cases indication <;> rfl

section
variable {s : State} {p : Fin 32} {en : ProbeEntry}

theorem takeProbeEntry_of_not_fitted (h : (s.probe p).fitted = false) : takeProbeEntry p en s = s :=
  if_neg (by simp [h])

section
variable (h : (s.probe p).fitted = true)
include h

theorem takeProbeEntry_of_fitted : takeProbeEntry p en s =
    let u := s.updProbe p (applyEntry en)
    if (s.probe p).status = en.status then u
    else if en.status = .ok then clearAlarm .probeFault (.probe p) u
    else raiseAlarm .probeFault (.probe p) (some (.probeStatus en.status)) u := by
  have hstatus : ((s.updProbe p (applyEntry en)).probe p).status = en.status := by
    rw [probe_updProbe_same, applyEntry_eq]
  simp only [takeProbeEntry, if_pos h, probeStatusAlarm, hstatus]

theorem takeProbeEntry_of_same (hsame : (s.probe p).status = en.status) : takeProbeEntry p en s = s.updProbe p (applyEntry en) :=
  (takeProbeEntry_of_fitted h).trans (if_pos hsame)

theorem takeProbeEntry_of_ok (hne : (s.probe p).status ≠ en.status) (hok : en.status = .ok) :
    takeProbeEntry p en s = clearAlarm .probeFault (.probe p) (s.updProbe p (applyEntry en)) :=
  (takeProbeEntry_of_fitted h).trans ((if_neg hne).trans (if_pos hok))

theorem takeProbeEntry_of_not_ok (hne : (s.probe p).status ≠ en.status) (hbad : en.status ≠ .ok) : takeProbeEntry p en s =
    raiseAlarm .probeFault (.probe p) (some (.probeStatus en.status)) (s.updProbe p (applyEntry en)) :=
  (takeProbeEntry_of_fitted h).trans ((if_neg hne).trans (if_neg hbad))

end

end

/-! ## The room temperature (R109) -/

theorem Probe.counts_iff (x : Probe) (excluded : Bool) : x.counts excluded = true ↔
    x.fitted = true ∧ x.status = .ok ∧ -500 ≤ x.reading ∧ x.reading ≤ 500 ∧ ¬(x.coilSide = true ∧ excluded = true) := by
  simp [Probe.counts, Probe.valid, and_assoc, imp_iff_not_or]

theorem highest_eq_none_iff (xs : List Temp) : highest xs = none ↔ xs = [] := by
  cases xs with
  | nil => simp [highest]
  | cons x xs =>
    simp only [highest]
    cases highest xs <;> simp

/-- The highest of some temperatures is one of them, and none is above it. -/
theorem highest_eq_some {xs : List Temp} {v : Temp} (h : highest xs = some v) : v ∈ xs ∧ ∀ x ∈ xs, x ≤ v := by
  induction xs generalizing v with
  | nil => cases h
  | cons x xs ih =>
    cases hrest : highest xs with
    | none =>
      obtain rfl := (highest_eq_none_iff xs).1 hrest
      obtain rfl : x = v := by simpa [highest] using h
      simp
    | some u =>
      obtain ⟨hmem, hle⟩ := ih hrest
      obtain rfl : max x u = v := by simpa [highest, hrest] using h
      refine ⟨?_, fun y hy => ?_⟩
      · rcases max_choice x u with hmax | hmax <;> simp [hmax, hmem]
      · rcases List.mem_cons.1 hy with rfl | hy
        · exact le_max_left ..
        · exact (hle y hy).trans (le_max_right ..)

/-- R109: the readings that count for a room. -/
def State.countedReadings (s : State) (r : Fin 8) : List Temp :=
  ((roomProbes r).filter fun p => (s.probe p).counts (s.coilsHot r)).map fun p => (s.probe p).reading

section
variable {s : State} {r : Fin 8}

theorem mem_countedReadings {v : Temp} : v ∈ s.countedReadings r ↔
    ∃ p ∈ roomProbes r, (s.probe p).counts (s.coilsHot r) = true ∧ v = (s.probe p).reading := by
  simp only [State.countedReadings, List.mem_map, List.mem_filter, and_assoc, eq_comm (a := v)]

theorem countedReadings_eq_nil_iff :
    s.countedReadings r = [] ↔ ∀ p ∈ roomProbes r, ¬(s.probe p).counts (s.coilsHot r) = true := by
  rw [State.countedReadings, List.map_eq_nil_iff, List.filter_eq_nil_iff]

/-- A derivation writes what the highest counted reading gives into the room's record. -/
theorem thermal_deriveRoom : (deriveRoom r s).thermal r =
    { s.thermal r with
      temp := (highest (s.countedReadings r)).getD (s.thermal r).temp
      known := (highest (s.countedReadings r)).isSome
      coilExcluded := s.coilsHot r } := by
  have hkept : (s.forEach (roomProbes r) fun p t => t.updProbe p fun x => { x with counted := x.counts (s.coilsHot r) }).thermal r
      = s.thermal r :=
    frame_forEach (fun t => t.thermal r) (fun p t => t.updProbe p fun x => { x with counted := x.counts (s.coilsHot r) })
      (fun _ _ => rfl) _ _
  simp only [deriveRoom, thermal_updThermal, if_true, hkept]
  rw [← State.countedReadings]
  cases highest (s.countedReadings r) <;> rfl

theorem thermal_deriveRoom_of_none (h : ∀ p ∈ roomProbes r, ¬(s.probe p).counts (s.coilsHot r) = true) :
    ((deriveRoom r s).thermal r).known = false ∧ ((deriveRoom r s).thermal r).temp = (s.thermal r).temp := by
  rw [thermal_deriveRoom, (highest_eq_none_iff _).2 (countedReadings_eq_nil_iff.2 h)]
  exact ⟨rfl, rfl⟩

theorem thermal_deriveRoom_of_some (h : ∃ p ∈ roomProbes r, (s.probe p).counts (s.coilsHot r) = true) :
    ((deriveRoom r s).thermal r).known = true ∧ ((deriveRoom r s).thermal r).temp ∈ s.countedReadings r
      ∧ ∀ u ∈ s.countedReadings r, u ≤ ((deriveRoom r s).thermal r).temp := by
  obtain ⟨p, hp, hcounts⟩ := h
  have hne : highest (s.countedReadings r) ≠ none := fun hnone =>
    countedReadings_eq_nil_iff.1 ((highest_eq_none_iff _).1 hnone) p hp hcounts
  obtain ⟨v, hv⟩ := Option.ne_none_iff_exists'.1 hne
  rw [thermal_deriveRoom, hv]
  exact ⟨rfl, highest_eq_some hv⟩

end

/-! ## The statement -/

/-- Settles O51: a report is its entries, the derivation and the evaluation; an entry acts by the status it gives, and the derivation
by the readings that count. -/
theorem probeReportsSetTheProbes : Obligations.ProbeReportsSetTheProbes := by
  refine ⟨?report, fun s p en hfitted => takeProbeEntry_of_not_fitted hfitted, ?entry, ?derived⟩
  case report =>
    intro r received s a b c d h u
    exact exec_row_of_answers h
  case entry =>
    intro s p en hfitted status u
    have hstatus : en.status = status := rfl
    have hwrite : s.updProbe p (applyEntry en) = u := congrArg (s.updProbe p) (funext (applyEntry_eq en))
    rw [← hstatus, ← hwrite]
    exact ⟨takeProbeEntry_of_same hfitted, takeProbeEntry_of_ok hfitted, takeProbeEntry_of_not_ok hfitted⟩
  case derived =>
    intro s r counts y
    have hcounts (p : Fin 32) : (s.probe p).counts (s.coilsHot r) = true ↔ counts p := Probe.counts_iff _ _
    refine ⟨fun p hp => ?_, fun hnone => ?_, fun ⟨p, hp, hc⟩ => ?_⟩
    · rw [probe_deriveRoom, if_pos ((mem_roomProbes p r).1 hp).symm]
      exact hcounts p
    · exact thermal_deriveRoom_of_none fun p hp hc => hnone p hp ((hcounts p).1 hc)
    · obtain ⟨hknown, hmem, hle⟩ := thermal_deriveRoom_of_some ⟨p, hp, (hcounts p).2 hc⟩
      obtain ⟨q, hq, hqc, htemp⟩ := mem_countedReadings.1 hmem
      refine ⟨hknown, ⟨q, hq, (hcounts q).1 hqc, htemp⟩, fun q hq hqc => ?_⟩
      exact hle _ (mem_countedReadings.2 ⟨q, hq, (hcounts q).2 hqc, rfl⟩)

end Sys2Proof.Machine
end

section
/-! SUPPORT. SITE_SET, START_SITE, STOP_SITE and READ_MODE: what MOC answers to an argument list of the request's form (R189, R190,
R192, R196), and the clock change (R118, R128). -/

namespace Sys2Proof.Machine

/-! ## SITE_SET (R189) -/

/-- An optional 32-bit number reads back. -/
theorem optField_four {clock : Option Nat} (hclock : ∀ c ∈ clock, c < 4294967296) : ∃ flag c3 c2 c1 c0 : Byte,
    optField 4 (clock.map (be 4)) = [flag, c3, c2, c1, c0] ∧ readOptional flag (beNat [c3, c2, c1, c0]) = some clock := by
  cases clock with
  | none => exact ⟨0#8, 0#8, 0#8, 0#8, 0#8, by simp [optField, flag1, be_four], by decide⟩
  | some c => exact ⟨1#8, _, _, _, _, by simp [optField, flag1, be_four], congrArg (fun n => some (some n)) (beNat_four (hclock c rfl))⟩

/-- R201: a presence flag above 01h, or an absent field with other bytes (log entry 50), in either field. -/
theorem siteSetReply_of_bad {a c3 c2 c1 c0 b n1 n0 : Byte}
    (h : readOptional a (beNat [c3, c2, c1, c0]) = none ∨ readOptional b (num n1 n0) = none) (s : State) :
    siteSetReply [a, c3, c2, c1, c0, b, n1, n0] s = .error .badArg := by
  simp only [siteSetReply]
  split
  next hclock hallowance =>
    rcases h with hbad | hbad
    · exact absurd (hclock.symm.trans hbad) (Option.some_ne_none _)
    · exact absurd (hallowance.symm.trans hbad) (Option.some_ne_none _)
  next => rfl

theorem siteSetReply_be {clock allowance : Option Nat} (hclock : ∀ c ∈ clock, c < 4294967296)
    (hallowance : ∀ n ∈ allowance, n < 65536) (s : State) :
    siteSetReply (optField 4 (clock.map (be 4)) ++ optField 2 (allowance.map (be 2))) s = setSite clock allowance s := by
  obtain ⟨a, c3, c2, c1, c0, hbytes, hread⟩ := optField_four hclock
  obtain ⟨b, n1, n0, hbytes', hread'⟩ := optField_two hallowance
  simp only [siteSetReply, hbytes, hbytes', List.cons_append, List.nil_append, hread, hread']

/-- R128: the allowance asked for is outside 1 to 4. -/
def AllowanceOutside (allowance : Option Nat) : Prop := ∃ n, allowance = some n ∧ (n < 1 ∨ 4 < n)

/-- R128: the allowance asked for is below the number held. -/
def State.AllowanceBelow (s : State) (allowance : Option Nat) : Prop := ∃ n, allowance = some n ∧ n < s.allowanceUsed

/-- R189: the allowance asked for is stored. -/
def storeAllowance (allowance : Option Nat) (s : State) : State :=
  s.withDfc { s.dfc with allowance := allowance.getD s.dfc.allowance }

section
variable {clock allowance : Option Nat} {s : State}

theorem allowance_outside_iff : (allowance.any fun n => n < 1 || 4 < n) = true ↔ AllowanceOutside allowance := by
  simp only [AllowanceOutside, Option.any_eq_true, Bool.or_eq_true, decide_eq_true_eq]

theorem allowance_below_iff : (allowance.any fun n => n < s.allowanceUsed) = true ↔ s.AllowanceBelow allowance := by
  simp only [State.AllowanceBelow, Option.any_eq_true, decide_eq_true_eq]

theorem setSite_of_outside (h : AllowanceOutside allowance) : setSite clock allowance s = .error .badArg :=
  if_pos (allowance_outside_iff.2 h)

theorem setSite_of_below (hin : ¬AllowanceOutside allowance) (h : s.AllowanceBelow allowance) :
    setSite clock allowance s = .error .busy :=
  (if_neg (mt allowance_outside_iff.1 hin)).trans (if_pos (allowance_below_iff.2 h))

section
variable (hin : ¬AllowanceOutside allowance) (habove : ¬s.AllowanceBelow allowance)
include hin habove

theorem setSite_of_no_clock : setSite none allowance s =
    done (time4 s.moc.clock ++ be 2 (storeAllowance allowance s).dfc.allowance) (storeAllowance allowance s) :=
  (if_neg (mt allowance_outside_iff.1 hin)).trans (if_neg (mt allowance_below_iff.1 habove))

theorem setSite_of_clock {c : Nat} (hc : c < 4294967296) : setSite (some c) allowance s =
    done (be 4 c ++ be 2 (storeAllowance allowance s).dfc.allowance) (setClock c (storeAllowance allowance s)) := by
  have htime : time4 c = be 4 c := if_pos (Nat.le_of_lt_succ hc)
  rw [← htime]
  exact (if_neg (mt allowance_outside_iff.1 hin)).trans (if_neg (mt allowance_below_iff.1 habove))

end

end

/-! ## START_SITE (R190) -/

section
variable {order : List Block} {s : State}

theorem startSite_of_supply (h : s.moc.supplyFail = true) : startSite order s = .error .supply := if_pos h

section
variable (hsupply : s.moc.supplyFail = false)
include hsupply

theorem startSite_eq : startSite order s =
    if s.moc.stoppedAt.any fun t => s.moc.clock < t + 30 then .error .tooSoon
    else started (enterMode .checking order (setSelfCheck .inProgress
      (s.withMoc { s.moc with rollCounts := Vector.replicate 4 0 }))) :=
  if_neg (by simp [hsupply])

theorem startSite_of_early (h : ∃ w, s.moc.stoppedAt = some w ∧ s.moc.clock < w + 30) : startSite order s = .error .tooSoon :=
  (startSite_eq hsupply).trans (if_pos (by simpa [Option.any_eq_true] using h))

theorem startSite_of_rested (h : ¬∃ w, s.moc.stoppedAt = some w ∧ s.moc.clock < w + 30) : startSite order s =
    started (enterMode .checking order (setSelfCheck .inProgress
      (s.withMoc { s.moc with rollCounts := Vector.replicate 4 0 }))) :=
  (startSite_eq hsupply).trans (if_neg (by simpa [Option.any_eq_true] using h))

end

/-! ## STOP_SITE (R192) -/

theorem DoorState.inSequence_iff (st : DoorState) :
    st.inSequence = true ↔ st ∈ [DoorState.sealing, .opening, .opened, .closing, .unsealing] := by
  cases st <;> decide

/-- R192: orders, doors or defrosts are under way. -/
def State.underWay (s : State) : Prop :=
  (∃ x ∈ s.orders, x.2.state = .granted ∨ x.2.state = .carrying)
    ∨ (∃ d, (s.door d).state ∈ [DoorState.sealing, .opening, .opened, .closing, .unsealing]) ∨ 0 < s.allowanceUsed

theorem underWay_iff : (s.ordersRunning || s.doorsRunning || decide (0 < s.allowanceUsed)) = true ↔ s.underWay := by
  simp only [State.underWay, State.ordersRunning, State.doorsRunning, Bool.or_eq_true, List.any_eq_true, decide_eq_true_eq,
    List.mem_finRange, true_and, DoorState.inSequence_iff, or_assoc]

theorem stopSite_of_early (h : s.moc.clock < s.moc.modeSince + 30) : stopSite order s = .error .tooSoon := if_pos h

theorem stopSite_of_busy (hlate : ¬s.moc.clock < s.moc.modeSince + 30) (h : s.underWay) : stopSite order s = .error .busy :=
  (if_neg hlate).trans (if_pos (underWay_iff.2 h))

theorem stopSite_of_quiet (hlate : ¬s.moc.clock < s.moc.modeSince + 30) (h : ¬s.underWay) : stopSite order s =
    done [] (enterMode .standby order (s.withMoc { s.moc with stoppedAt := some s.moc.clock })) :=
  (if_neg hlate).trans (if_neg (mt underWay_iff.1 h))

end

/-! ## READ_MODE (R196) -/

theorem strapByte_eq (x : Strap) : strapByte x = if x = .terminal then 1#8 else 0#8 := by cases x <;> rfl

theorem modeResults_eq (s : State) : s.modeResults =
    [s.moc.mode.byte] ++ time4 s.moc.modeSince ++ optField 1 (s.moc.remembered.map fun x => [x.byte]) ++ optTime s.moc.stoppedAt
      ++ [if s.moc.strap = .terminal then 1#8 else 0#8] ++ s.moc.selfCheck.bytes ++ s.moc.rollCounts.toList.flatMap (be 2)
      ++ flag1 s.moc.supplyFail ++ flag1 s.moc.batteryLow ++ time4 s.moc.clock ++ be 2 s.dfc.allowance := by
  rw [← strapByte_eq]
  rfl

/-! ## The statement -/

/-- Settles O58: the checks of each request in their order; a clock change is `setClock`, written out in the statement. -/
theorem siteRequestsAnswer : Obligations.SiteRequestsAnswer := by
  refine ⟨availableIn_of_group (g := .configure) rfl, availableIn_of_group (g := .start) rfl, availableIn_of_group (g := .stop) rfl,
    availableIn_of_group (g := .always) rfl, ?form, ?site, ?start, ?stop, ?read⟩
  case form =>
    intro f s t a b c3 c2 c1 c0 n1 n0 h hargs hbad
    refine exec_refused rfl h (hargs ▸ siteSetReply_of_bad ?_ t)
    rcases hbad with ha | hb | ha | hb
    · exact .inl (readOptional_of_bad (.inl ha))
    · exact .inr (readOptional_of_bad (.inl hb))
    · exact .inl (readOptional_of_bad (.inr ha))
    · exact .inr (readOptional_of_bad (.inr hb))
  case site =>
    intro f s t clock allowance h hclock hallowance hargs bad low u
    have hreply : ownerReply .siteSet f.args t = setSite clock allowance t := hargs ▸ siteSetReply_be hclock hallowance t
    refine ⟨fun hbad => exec_refused rfl h (hreply.trans (setSite_of_outside hbad)),
      fun hgood hlow => exec_refused rfl h (hreply.trans (setSite_of_below hgood hlow)), ?kept, ?moved⟩
    case kept =>
      rintro hgood hhigh rfl
      exact exec_answered rfl h (hreply.trans (setSite_of_no_clock hgood hhigh))
    case moved =>
      rintro c hgood hhigh rfl
      exact exec_answered rfl h (hreply.trans (setSite_of_clock hgood hhigh (hclock c rfl)))
  case start =>
    intro f s t order h hargs early
    have hreply : ownerReply (.startSite order) f.args t = startSite order t := by rw [hargs]; rfl
    exact ⟨fun hsupply => exec_refused rfl h (hreply.trans (startSite_of_supply hsupply)),
      fun hsupply hearly => exec_refused rfl h (hreply.trans (startSite_of_early hsupply hearly)),
      fun hsupply hrested => exec_answered rfl h (hreply.trans (startSite_of_rested hsupply hrested))⟩
  case stop =>
    intro f s t order h hargs early busy
    have hreply : ownerReply (.stopSite order) f.args t = stopSite order t := by rw [hargs]; rfl
    exact ⟨fun hearly => exec_refused rfl h (hreply.trans (stopSite_of_early hearly)),
      fun hlate hbusy => exec_refused rfl h (hreply.trans (stopSite_of_busy hlate hbusy)),
      fun hlate hquiet => exec_answered rfl h (hreply.trans (stopSite_of_quiet hlate hquiet))⟩
  case read =>
    intro f s t h hargs m
    have hreply : ownerReply .readMode f.args t = done t.modeResults t := by rw [hargs]; rfl
    rw [modeResults_eq] at hreply
    exact exec_answered rfl h hreply

end Sys2Proof.Machine
end

section
/-! SUPPORT. The phases of an evaporator (R131): what an entry to a phase leaves in the record, the command slot and the attention, and
how the ends of HEAT, DRIP and REFREEZE are made of such entries (R134 to R137). -/

namespace Sys2Proof.Machine

section
variable (e : Fin 12) (s : State)

/-! ## Writes that do not meet -/

theorem updEvap_setDefrostCause (g : Fin 12) (f : Evap → Evap) :
    (setDefrostCause e s).updEvap g f = setDefrostCause e (s.updEvap g f) := rfl

theorem updEvap_placeEvap (c : CtlPhase) (g : Fin 12) (f : Evap → Evap) :
    (placeEvap e c s).updEvap g f = placeEvap e c (s.updEvap g f) := rfl

theorem updEvap_clearAlarm (k : AlarmKind) (sub : Subject) (f : Evap → Evap) :
    (clearAlarm k sub s).updEvap e f = clearAlarm k sub (s.updEvap e f) := rfl

/-! ## Entries to the phases with a command of their own -/

/-- R131: an entry to a phase that ends the deferral wait, with its deadline, its command and the DEFROST cause; `f` is what the entry
changes in the record besides. -/
def enterCommanded (p : Phase) (c : CtlPhase) (deadline : Option Time) (f : Evap → Evap) : State :=
  let u := s.updEvap e fun y => f { y with phase := p, phaseSince := s.moc.clock, deadline := deadline, deferralDue := none }
  (u.withLkp { u.lkp with
    pendingCauses := { u.lkp.pendingCauses with defrost := true }, defrostSet := insertFin e u.lkp.defrostSet }).updStation
      (.evap e) fun y => { y with slot := some (.evap c), slotSent := false }

/-- R130, R131: only DEMANDED and ALLOTTED keep the deferral wait. -/
theorem placeEvap_enterPhase {p : Phase} (hdemanded : p ≠ .demanded) (hallotted : p ≠ .allotted) (c : CtlPhase)
    (deadline : Option Time) (f : Evap → Evap) :
    placeEvap e c ((enterPhase e p deadline s).updEvap e f) = enterCommanded e s p c deadline f := by
  simp only [enterPhase, updEvap_setDefrostCause, updEvap_updEvap, hdemanded, hallotted, decide_false, Bool.or_false,
    if_neg Bool.false_ne_true]
  rfl

/-- What an entry changes besides is a matter of the one record it finds. -/
theorem enterCommanded_congr (p : Phase) (c : CtlPhase) (deadline : Option Time) {f g : Evap → Evap}
    (h : ∀ y : Evap, y.cfg = (s.evap e).cfg → f y = g y) :
    enterCommanded e s p c deadline f = enterCommanded e s p c deadline g := by
  have hrecord := updEvap_congr s e
    (fun y => f { y with phase := p, phaseSince := s.moc.clock, deadline := deadline, deferralDue := none })
    (fun y => g { y with phase := p, phaseSince := s.moc.clock, deadline := deadline, deferralDue := none }) (h _ rfl)
  simp only [enterCommanded, hrecord]

/-- R134, R122: HEAT runs by the termination temperature set when it is entered. -/
theorem enterHeat_eq : enterHeat e s =
    enterCommanded e s .heat .heat (some (s.moc.clock + (s.evap e).cfg.maxHeat)) fun y =>
      { y with terminationInUse := (s.evap e).cfg.termination } :=
  (placeEvap_enterPhase e s (p := .heat) (by decide) (by decide) _ _ _).trans
    (enterCommanded_congr e s _ _ _ fun y hcfg => by rw [hcfg])

theorem enterDrip_eq : enterDrip e s =
    enterCommanded e s .drip .drip (some (s.moc.clock + (s.evap e).cfg.drip)) fun y => { y with extensions := 0 } :=
  placeEvap_enterPhase e s (p := .drip) (by decide) (by decide) _ _ _

/-- R136, R122: REFREEZE runs by the fan-start temperature set when it is entered; the allowance is given up and the claim withdrawn in
the room of the settings. -/
theorem endDrip_eq : endDrip e s =
    allowancePass (placeEvap e .refreeze (holdWithdrawal (s.evap e).cfg.room e
      ((enterPhase e .refreeze (some (s.moc.clock + (s.evap e).cfg.refreeze)) s).updEvap e fun y =>
        { y with fanStartInUse := (s.evap e).cfg.fanStart, allowanceHeld := false }))) := by
  have hrecord := updEvap_congr (enterPhase e .refreeze (some (s.moc.clock + (s.evap e).cfg.refreeze)) s) e
    (fun y => { y with fanStartInUse := y.cfg.fanStart, allowanceHeld := false })
    (fun y => { y with fanStartInUse := (s.evap e).cfg.fanStart, allowanceHeld := false }) (by rw [evap_enterPhase])
  rw [← hrecord]
  simp only [endDrip, releaseAllowance, updEvap_updEvap, evap_updEvap_same, evap_enterPhase]
  rfl

/-- R137: the record of an evaporator whose defrost is over. -/
def Evap.defrosted (y : Evap) : Evap :=
  { y with frost := 0, forced := false, demandSince := none, holdConfirmed := false, heatTerminated := false }

/-- R137: DEFROST_OVERRUN is cleared where HEAT had ended on temperature. -/
theorem endRefreeze_eq : endRefreeze e s =
    if (s.evap e).heatTerminated then
      clearAlarm .defrostOverrun (.evap e) (enterCommanded e s .idle .run none Evap.defrosted)
    else enterCommanded e s .idle .run none Evap.defrosted := by
  rw [← placeEvap_enterPhase e s (p := .idle) (by decide) (by decide), ← updEvap_placeEvap, ← updEvap_clearAlarm]
  unfold endRefreeze
  split <;> rfl

end

end Sys2Proof.Machine
end

section
/-! SUPPORT. The deadlines of DFC: the frost interval (R125), the deferral wait (R130) and the phase deadlines (R134 to R137), each by
whether it has come. -/

namespace Sys2Proof.Machine

section
variable {e : Fin 12} {s : State}

/-! ## The frost interval (R125) -/

theorem frostOver_iff : s.frostOver = true ↔ ∃ d, s.dfc.frostDue = some d ∧ d ≤ s.moc.clock := by
  simp only [State.frostOver, Option.any_eq_true, decide_eq_true_eq]
  rfl

theorem exec_frostIntervalExpiry_of_due (h : s.frostOver = true) :
    exec .frostIntervalExpiry s = .next (settle (frostTick s)) := congrArg Host.Outcome.next (if_pos h)

theorem exec_frostIntervalExpiry_of_not_due (h : ∀ d, s.dfc.frostDue = some d → s.moc.clock < d) :
    exec .frostIntervalExpiry s = .next s := by
  refine congrArg Host.Outcome.next (if_neg fun hover => ?_)
  obtain ⟨d, hdue, hle⟩ := frostOver_iff.1 hover
  exact absurd hle (Nat.not_le.2 (h d hdue))

theorem Evap.accruesFrost_iff (x : Evap) : x.accruesFrost = true ↔
    x.cfg.configured = true ∧ (x.phase = .idle ∨ x.phase = .demanded ∨ x.phase = .allotted) := by
  simp only [Evap.accruesFrost, Bool.and_eq_true, Bool.or_eq_true, decide_eq_true_eq, or_assoc]

/-- R125: the evaporators that accrue take the base rate and the rate of each open door of their room. -/
def accrueFrost (s : State) : State :=
  (List.finRange 12).foldl (fun (w : State) e =>
    let x := w.evap e
    if x.cfg.configured = true ∧ (x.phase = .idle ∨ x.phase = .demanded ∨ x.phase = .allotted) then
      w.updEvap e fun y =>
        { y with frost := min 1000 (y.frost + (x.cfg.baseRate + w.openDoors x.cfg.room * x.cfg.doorRate)) }
    else w) s

theorem frostExpiry_eq : frostExpiry s = (List.finRange 12).foldl (fun w e => demandIfFull e w) (accrueFrost s) := by
  simp only [frostExpiry, State.forEach, accrueFrost, Evap.accruesFrost_iff]
  rfl

/-! ## The deferral wait (R130) -/

theorem deferralOver_iff : s.deferralOver e = true ↔
    ((s.evap e).phase = .demanded ∨ (s.evap e).phase = .allotted) ∧ ∃ d, (s.evap e).deferralDue = some d ∧ d ≤ s.moc.clock := by
  simp only [State.deferralOver, Bool.and_eq_true, Bool.or_eq_true, Option.any_eq_true, decide_eq_true_eq]
  rfl

theorem exec_deferralExpiry_of_due (h : s.deferralOver e = true) :
    exec (.deferralExpiry e) s = .next (settle (deferralExpiry e s)) := congrArg Host.Outcome.next (if_pos h)

theorem exec_deferralExpiry_of_not_due (h : ¬s.deferralOver e = true) : exec (.deferralExpiry e) s = .next s :=
  congrArg Host.Outcome.next (if_neg h)

/-- R130: the wait is over, with the demand forced and the alarm raised. -/
def deferralEnded (e : Fin 12) (s : State) : State :=
  raiseAlarm .defrostDeferred (.evap e) none (s.updEvap e fun y => { y with forced := true, deferralDue := none })

theorem deferralExpiry_of_demanded (h : (s.evap e).phase = .demanded) :
    deferralExpiry e s = allowancePass (deferralEnded e s) := by
  simp only [deferralExpiry, deferralExpires, h, if_true, reduceCtorEq, if_false]
  rfl

theorem deferralExpiry_of_allotted (h : (s.evap e).phase = .allotted) :
    deferralExpiry e s = forcingClaim (s.evap e).cfg.room e (deferralEnded e s) := by
  simp only [deferralExpiry, deferralExpires, h, if_true, reduceCtorEq, if_false]
  rfl

/-! ## The phase deadlines (R131) -/

theorem phaseDue_iff {p : Phase} : s.phaseDue e p = true ↔
    (s.evap e).phase = p ∧ ∃ d, (s.evap e).deadline = some d ∧ d ≤ s.moc.clock := by
  simp only [State.phaseDue, Bool.and_eq_true, Option.any_eq_true, decide_eq_true_eq]
  rfl

/-- The row of a phase deadline takes its expiry where the deadline of that phase has come, and is else no event (log entry 2). -/
def ExpiresTo (c : Instr) (p : Phase) (e : Fin 12) (s u : State) : Prop :=
  exec c s = .next (if s.phaseDue e p then settle u else s)

theorem expiresTo_heat : ExpiresTo (.pumpdownDeadlineExpiry e) .pumpdown e s (enterHeat e s) := rfl
theorem expiresTo_drip : ExpiresTo (.maxHeatExpiry e) .heat e s (maxHeatExpiry e s) := rfl
theorem expiresTo_refreeze : ExpiresTo (.dripDeadlineExpiry e) .drip e s (endDrip e s) := rfl
theorem expiresTo_idle : ExpiresTo (.refreezeDeadlineExpiry e) .refreeze e s (endRefreeze e s) := rfl

section
variable {c : Instr} {p : Phase} {u : State} (h : ExpiresTo c p e s u)
include h

theorem ExpiresTo.of_due {d : Time} (hp : (s.evap e).phase = p) (hd : (s.evap e).deadline = some d) (hle : d ≤ s.moc.clock) :
    exec c s = .next (settle u) := by
  rw [ExpiresTo, if_pos (phaseDue_iff.2 ⟨hp, d, hd, hle⟩)] at h
  exact h

theorem ExpiresTo.of_not_due (hnot : ¬s.phaseDue e p = true) : exec c s = .next s := by
  rw [ExpiresTo, if_neg hnot] at h
  exact h

theorem ExpiresTo.of_early {d : Time} (hd : (s.evap e).deadline = some d) (hlt : s.moc.clock < d) : exec c s = .next s := by
  refine h.of_not_due fun hdue => ?_
  obtain ⟨-, d', hd', hle⟩ := phaseDue_iff.1 hdue
  obtain rfl : d = d' := Option.some.inj (hd.symm.trans hd')
  exact absurd hle (Nat.not_le.2 hlt)

theorem ExpiresTo.of_foreign (hnot : (s.evap e).deadline = none ∨ (s.evap e).phase ≠ p) : exec c s = .next s := by
  refine h.of_not_due fun hdue => ?_
  obtain ⟨hp, d, hd, -⟩ := phaseDue_iff.1 hdue
  rcases hnot with hnone | hne
  · exact Option.some_ne_none d (hd.symm.trans hnone)
  · exact hne hp

end

end

/-! ## The statement -/

/-- Settles O53: each deadline by whether it has come, and each expiry by the phase entries it is made of. -/
theorem defrostDeadlinesExpire : Obligations.DefrostDeadlinesExpire := by
  refine ⟨fun s d hdue => ⟨?frost, ?early⟩, ?stopped, ?evap⟩
  case frost =>
    intro hle u v
    rw [exec_frostIntervalExpiry_of_due (frostOver_iff.2 ⟨d, hdue, hle⟩), frostTick, frostExpiry_eq]
    rfl
  case early =>
    exact fun hlt => exec_frostIntervalExpiry_of_not_due fun d' hdue' => Option.some.inj (hdue.symm.trans hdue') ▸ hlt
  case stopped =>
    exact fun s hnone => exec_frostIntervalExpiry_of_not_due fun d hdue => absurd (hdue.symm.trans hnone) (Option.some_ne_none d)
  case evap =>
    intro s e x enters
    refine ⟨?deferral, ?waits, expiresTo_heat.of_foreign, expiresTo_drip.of_foreign, expiresTo_refreeze.of_foreign,
      expiresTo_idle.of_foreign, fun d hd => ⟨?due, fun hlt => ⟨expiresTo_heat.of_early hd hlt, expiresTo_drip.of_early hd hlt,
        expiresTo_refreeze.of_early hd hlt, expiresTo_idle.of_early hd hlt⟩⟩⟩
    case deferral =>
      intro d hdue hle u
      refine ⟨fun hp => ?demanded, fun hp => ?allotted⟩
      case demanded =>
        rw [exec_deferralExpiry_of_due (deferralOver_iff.2 ⟨.inl hp, d, hdue, hle⟩), deferralExpiry_of_demanded hp]
        rfl
      case allotted =>
        rw [exec_deferralExpiry_of_due (deferralOver_iff.2 ⟨.inr hp, d, hdue, hle⟩), deferralExpiry_of_allotted hp]
        rfl
    case waits =>
      refine fun hnot => exec_deferralExpiry_of_not_due fun hover => ?_
      obtain ⟨hp, d, hdue, hle⟩ := deferralOver_iff.1 hover
      rcases hnot with hlt | ⟨hdemanded, hallotted⟩
      · exact absurd hle (Nat.not_le.2 (hlt d hdue))
      · exact hp.elim hdemanded hallotted
    case due =>
      intro hle
      refine ⟨fun hp => ?heat, fun hp => ?drip, ?refreeze, ?idle⟩
      case heat =>
        rw [expiresTo_heat.of_due hp hd hle, enterHeat_eq]
        rfl
      case drip =>
        rw [expiresTo_drip.of_due hp hd hle, maxHeatExpiry, enterDrip_eq]
        rfl
      case refreeze =>
        intro hp u
        rw [expiresTo_refreeze.of_due hp hd hle, endDrip_eq]
      case idle =>
        intro hp u
        rw [expiresTo_idle.of_due hp hd hle, endRefreeze_eq]
        rfl

end Sys2Proof.Machine
end

section
/-! SUPPORT. The reports of an evaporator's controller (R123, R124): what a report does by the phase that it finds, and the command that
it has placed again by the phase that it leaves. -/

namespace Sys2Proof.Machine

section
variable {e : Fin 12} {r : CtlReport} {s : State}

/-! ## What a report does by phase (R124, R135 to R137) -/

section
variable {fresh before : Bool}

theorem controllerPhaseEffect_of_heat (hp : (s.evap e).phase = .heat) : controllerPhaseEffect e fresh before r s =
    if (s.evap e).terminationInUse ≤ r.coil then endHeatOnTemperature e s else s := by
  simp only [controllerPhaseEffect, hp]

/-- R136: a new request moves the deadline 120 s, twice in a DRIP at most. -/
theorem controllerPhaseEffect_of_drip (hp : (s.evap e).phase = .drip) : controllerPhaseEffect e true before r s =
    if r.extension = true ∧ before = false ∧ (s.evap e).extensions < 2 then
      s.updEvap e fun y => { y with extensions := y.extensions + 1, deadline := y.deadline.map (· + 120) }
    else s := by
  simp only [controllerPhaseEffect, hp, Bool.true_and, Bool.and_eq_true, Bool.not_eq_true', decide_eq_true_eq, and_assoc]
  rfl

theorem controllerPhaseEffect_of_refreeze (hp : (s.evap e).phase = .refreeze) : controllerPhaseEffect e fresh before r s =
    if r.coil ≤ (s.evap e).fanStartInUse then endRefreeze e s else s := by
  simp only [controllerPhaseEffect, hp]

/-- R124: no other phase judges a report. -/
theorem controllerPhaseEffect_of_other (hheat : (s.evap e).phase ≠ .heat) (hdrip : (s.evap e).phase ≠ .drip)
    (hrefreeze : (s.evap e).phase ≠ .refreeze) : controllerPhaseEffect e fresh before r s = s := by
  simp only [controllerPhaseEffect]

end

/-! ## The command placed again (R123, R124) -/

theorem controllerDisagree_of_none (h : (s.evap e).phase.expected = none) : controllerDisagree e r s = s := by
  simp only [controllerDisagree, h]

/-- The heater belongs to HEAT alone. -/
theorem controllerDisagree_of_some {c : CtlPhase} (h : (s.evap e).phase.expected = some c) : controllerDisagree e r s =
    if r.phase = c ∧ (r.heaterOn = true ↔ c = .heat) then s else placeEvap e c s := by
  have hheater : r.heaterOn = decide (c = .heat) ↔ (r.heaterOn = true ↔ c = .heat) := by cases r.heaterOn <;> simp
  have hagrees : (r.phase ≠ c || r.heaterOn ≠ decide (c = .heat)) = true ↔ ¬(r.phase = c ∧ (r.heaterOn = true ↔ c = .heat)) := by
    simp only [Bool.or_eq_true, decide_eq_true_eq, ne_eq, not_and_or, hheater]
  simp only [controllerDisagree, h, hagrees, ite_not]

/-! ## The row -/

/-- R124: the state with the report stored. -/
def controllerTold (e : Fin 12) (r : CtlReport) (s : State) : State :=
  (takeDelivery (.evap e) s).updEvap e fun y => { y with last := r }

theorem evap_controllerTold : (controllerTold e r s).evap e = { s.evap e with last := r } := evap_updEvap_same ..

theorem exec_controllerStatus {received : List Byte} (h : Answers (.evap e) (.controller r) received s) :
    exec (.controllerStatus received) s = reported .evap (controllerDisagree e r
      (controllerPhaseEffect e true (s.evap e).last.extension r (controllerTold e r s))) :=
  exec_row_of_answers h

end

/-! ## The statement -/

/-- Settles O54: `v` is what the report's effect leaves, and the command is placed again by the phase of `v`. -/
theorem controllerReportsActByPhase : Obligations.ControllerReportsActByPhase := by
  intro e received s r h x u expected
  have hu : u.evap e = { x with last := r } := evap_controllerTold
  have hphase : (u.evap e).phase = x.phase := by rw [hu]
  refine ⟨controllerPhaseEffect e true x.last.extension r u, ?row, ?hot, ?cold, ?drip, ?frozen, ?thawed, ?other⟩
  case row =>
    have hexpected (p : Phase) : expected p = p.expected := by cases p <;> rfl
    refine (exec_controllerStatus h).trans (congrArg (reported .evap) ?_)
    rw [hexpected]
    cases hc : ((controllerPhaseEffect e true x.last.extension r u).evap e).phase.expected with
    | none => exact controllerDisagree_of_none hc
    | some c => exact controllerDisagree_of_some hc
  case hot =>
    intro hp hle
    rw [controllerPhaseEffect_of_heat (hphase.trans hp), hu, if_pos hle]
    rfl
  case cold =>
    intro hp hlt
    rw [controllerPhaseEffect_of_heat (hphase.trans hp), hu, if_neg (Int.not_le.2 hlt)]
  case drip =>
    intro hp asks
    rw [controllerPhaseEffect_of_drip (hphase.trans hp), hu]
    exact ⟨fun h => if_pos h, fun h => if_neg h⟩
  case frozen =>
    intro hp hle
    rw [controllerPhaseEffect_of_refreeze (hphase.trans hp), hu, if_pos hle]
  case thawed =>
    intro hp hlt
    rw [controllerPhaseEffect_of_refreeze (hphase.trans hp), hu, if_neg (Int.not_le.2 hlt)]
  case other =>
    intro hheat hdrip hrefreeze
    exact controllerPhaseEffect_of_other (hphase ▸ hheat) (hphase ▸ hdrip) (hphase ▸ hrefreeze)

end Sys2Proof.Machine
end

section
/-! SUPPORT. The requests to DFC: EVAP_SET by its settings (R121, R122), DEFROST_REQUEST, DEFROST_ABORT and EVAP_RELEASE by the phase of a
configured evaporator (R127, R140, R141), and EVAP_READ (R143). -/

namespace Sys2Proof.Machine

/-! ## The settings of an EVAP_SET (R121, R122) -/

/-- A flag byte above 01h or a room above 7 is BAD_ARG, whatever stands after it. -/
theorem readEvapConfig_of_bad {b r1 r0 : Byte} {rest : List Byte} (h : 1 < b.toNat ∨ 8 ≤ beNat [r1, r0]) :
    readEvapConfig (b :: r1 :: r0 :: rest) = none := by
  unfold readEvapConfig
  split
  next heq =>
    cases heq
    rcases h with hflag | hroom
    · rw [readFlag_of_gt hflag]
    · rw [readFin_of_le (n := num r1 r0) hroom]
      cases readFlag b <;> rfl
  next => rfl

theorem evapSetReply_of_bad {e1 e0 b r1 r0 : Byte} {rest : List Byte} (h : 1 < b.toNat ∨ 8 ≤ beNat [r1, r0]) (s : State) :
    evapSetReply (e1 :: e0 :: b :: r1 :: r0 :: rest) s = .error .badArg := by
  simp only [evapSetReply, readEvapConfig_of_bad h]
  cases readFin (num e1 e0) 12 <;> rfl

/-- The settings fit the fields of an EVAP_SET: its numbers and its temperatures are of 16 bits. -/
structure EvapConfig.Fits (c : EvapConfig) : Prop where
  numbers : ∀ n ∈ [c.pumpdown, c.maxHeat, c.drip, c.refreeze, c.deferral, c.baseRate, c.doorRate, c.portalRate], n < 65536
  temps : ∀ x ∈ [c.termination, c.fanStart], -32768 ≤ x ∧ x ≤ 32767

/-- The twelve settings read back from their bytes. -/
theorem readEvapConfig_bytes {c : EvapConfig} (h : c.Fits) : readEvapConfig c.bytes = some c := by
  obtain ⟨hnumbers, htemps⟩ := h
  simp only [List.forall_mem_cons] at hnumbers htemps
  obtain ⟨hpumpdown, hmaxHeat, hdrip, hrefreeze, hdeferral, hbase, hdoor, hportal, -⟩ := hnumbers
  obtain ⟨⟨htermLow, htermHigh⟩, ⟨hfanLow, hfanHigh⟩, -⟩ := htemps
  have hroom : c.room.1 < 65536 := by omega
  simp only [EvapConfig.bytes, readEvapConfig, num2, temp2, flag1, be_two, List.cons_append, List.nil_append, readFlag_flag,
    num_be hroom, readFin_val, num_be hpumpdown, num_be hmaxHeat, temp_be htermLow htermHigh, num_be hdrip, num_be hrefreeze,
    temp_be hfanLow hfanHigh, num_be hdeferral, num_be hbase, num_be hdoor, num_be hportal]

/-- R121, R122: the ranges of the settings, with the fan-start temperature below the termination temperature. -/
theorem EvapConfig.inRange_iff (c : EvapConfig) : c.inRange = true ↔
    (30 ≤ c.pumpdown ∧ c.pumpdown ≤ 300) ∧ (300 ≤ c.maxHeat ∧ c.maxHeat ≤ 3600)
      ∧ (-500 ≤ c.termination ∧ c.termination ≤ 500) ∧ (60 ≤ c.drip ∧ c.drip ≤ 900) ∧ (60 ≤ c.refreeze ∧ c.refreeze ≤ 900)
      ∧ (-500 ≤ c.fanStart ∧ c.fanStart ≤ 500) ∧ (5 ≤ c.deferral ∧ c.deferral ≤ 120) ∧ c.baseRate ≤ 1000 ∧ c.doorRate ≤ 1000
      ∧ c.portalRate ≤ 1000 ∧ c.fanStart < c.termination := by
  simp only [EvapConfig.inRange, Bool.and_eq_true, decide_eq_true_eq, and_assoc]

section
variable {e : Fin 12} {c : EvapConfig} {s : State}

/-! ## EVAP_SET (R122, R168) -/

/-- R122: the settings would change the configured flag or the room. -/
def Evap.rebinds (x : Evap) (c : EvapConfig) : Prop := x.cfg.configured ≠ c.configured ∨ x.cfg.room ≠ c.room

theorem rebinds_while_running_iff (x : Evap) (c : EvapConfig) :
    ((decide (x.cfg.configured ≠ c.configured) || decide (x.cfg.room ≠ c.room)) && decide (x.phase ≠ .idle)) = true ↔
      x.rebinds c ∧ x.phase ≠ .idle := by
  simp only [Evap.rebinds, Bool.and_eq_true, Bool.or_eq_true, decide_eq_true_eq]

section
variable (h : c.Fits)
include h

theorem evapSetReply_bytes : evapSetReply (be 2 e.1 ++ c.bytes) s =
    if !c.inRange then .error .badArg
    else if (decide ((s.evap e).cfg.configured ≠ c.configured) || decide ((s.evap e).cfg.room ≠ c.room))
        && decide ((s.evap e).phase ≠ .idle) then .error .busy
    else done [] (setEvap e c s) := by
  have he : e.1 < 65536 := by omega
  simp only [evapSetReply, be_two, List.cons_append, List.nil_append, num_be he, readFin_val, readEvapConfig_bytes h]

theorem evapSetReply_of_range (hrange : ¬c.inRange = true) : evapSetReply (be 2 e.1 ++ c.bytes) s = .error .badArg :=
  (evapSetReply_bytes h).trans (if_pos (by simpa using hrange))

theorem evapSetReply_of_busy (hrange : c.inRange = true) (hnew : (s.evap e).rebinds c) (hphase : (s.evap e).phase ≠ .idle) :
    evapSetReply (be 2 e.1 ++ c.bytes) s = .error .busy := by
  rw [evapSetReply_bytes h, if_neg (by simp [hrange]), if_pos ((rebinds_while_running_iff _ c).2 ⟨hnew, hphase⟩)]

theorem evapSetReply_of_free (hrange : c.inRange = true) (hfree : ¬((s.evap e).rebinds c ∧ (s.evap e).phase ≠ .idle)) :
    evapSetReply (be 2 e.1 ++ c.bytes) s = done [] (setEvap e c s) := by
  rw [evapSetReply_bytes h, if_neg (by simp [hrange]), if_neg (mt (rebinds_while_running_iff _ c).1 hfree)]

end

/-- R122: the settings alone change where the configured flag stays. -/
theorem setEvap_of_same (h : (s.evap e).cfg.configured = c.configured) :
    setEvap e c s = s.updEvap e fun y => { y with cfg := c } := by
  have hrecord : (s.evap e).configure c = { s.evap e with cfg := c } := if_pos h
  rw [setEvap, configuredChanged_of_same h]
  exact updEvap_congr _ _ _ _ hrecord

/-- R122: where the configured flag changes, the record starts anew, marked lost where it is configured now. -/
theorem updEvap_configure_of_ne (h : (s.evap e).cfg.configured ≠ c.configured) :
    (s.updEvap e fun x => x.configure c) = s.updEvap e fun _ => { cfg := c, lost := c.configured } :=
  updEvap_congr _ _ _ _ (if_neg h)

theorem setEvap_of_added (hout : (s.evap e).cfg.configured = false) (hin : c.configured = true) : setEvap e c s =
    (s.updEvap e fun _ => { cfg := c, lost := true }).updStation (.evap e) Station.unheard := by
  have hne : (s.evap e).cfg.configured ≠ c.configured := by simp [hout, hin]
  rw [setEvap, updEvap_configure_of_ne hne, configuredChanged_of_ne hne, if_neg (by simp [hout]), hin]

theorem setEvap_of_removed (hin : (s.evap e).cfg.configured = true) (hout : c.configured = false) : setEvap e c s =
    clearAlarm .stationLost (.station (.evap e)) ((s.updEvap e fun _ => { cfg := c }).updStation (.evap e) Station.unheard) := by
  have hne : (s.evap e).cfg.configured ≠ c.configured := by simp [hin, hout]
  rw [setEvap, updEvap_configure_of_ne hne, configuredChanged_of_ne hne, if_pos hin, hout]
  rfl

/-! ## The requests that act on the phase (R121, R127, R140, R141) -/

section
variable {k : Fin 12 → State → Reply}

theorem onConfigured_of_configured (h : (s.evap e).cfg.configured = true) : onConfigured k e s = k e s := if_pos h

theorem onConfigured_of_not_configured (h : (s.evap e).cfg.configured = false) : onConfigured k e s = .error .badArg :=
  if_neg (by simp [h])

end

theorem requestDefrost_of_idle (h : (s.evap e).phase = .idle) : requestDefrost e s = started (raiseDemand e s) := if_pos h

theorem requestDefrost_of_running (h : (s.evap e).phase ≠ .idle) : requestDefrost e s = .error .already := if_neg h

theorem abortDefrost_of_demanded (h : (s.evap e).phase = .demanded) :
    abortDefrost e s = done [] (clearAlarm .defrostDeferred (.evap e) (abortToIdle e s)) := by
  simp only [abortDefrost, h]

/-- R141: an ALLOTTED evaporator gives its allowance and its claim back as it becomes IDLE. -/
theorem abortDefrost_of_allotted (h : (s.evap e).phase = .allotted) : abortDefrost e s =
    done [] (allowancePass (clearAlarm .defrostDeferred (.evap e)
      ((holdWithdrawal (s.evap e).cfg.room e ((abortToIdle e s).updEvap e fun y => { y with allowanceHeld := false })).updEvap e
        fun y => { y with holdConfirmed := false }))) := by
  have hroom : ((abortToIdle e s).evap e).cfg.room = (s.evap e).cfg.room := by
    simp only [abortToIdle, evap_updEvap_same, evap_enterPhase]
  simp only [abortDefrost, h, releaseAllowance, hroom]

theorem abortDefrost_of_pumpdown_or_heat (h : (s.evap e).phase = .pumpdown ∨ (s.evap e).phase = .heat) :
    abortDefrost e s = done [] (clearAlarm .defrostDeferred (.evap e) (enterDrip e s)) := by
  rcases h with h | h <;> simp only [abortDefrost, h]

theorem abortDefrost_of_other (h : (s.evap e).phase = .idle ∨ (s.evap e).phase = .drip ∨ (s.evap e).phase = .refreeze
    ∨ (s.evap e).phase = .fault) : abortDefrost e s = .error .already := by
  rcases h with h | h | h | h <;> simp only [abortDefrost, h]

/-- R140: a FAULT is left as IDLE, with the allowance and the claim given back and both alarms cleared. -/
theorem releaseFault_eq : releaseFault e s =
    placeEvap e .run ((clearAlarm .defrostDeferred (.evap e) (clearAlarm .defrostStuck (.evap e)
      (holdWithdrawal (s.evap e).cfg.room e
        ((enterPhase e .idle none s).updEvap e fun y => { y with allowanceHeld := false })))).updEvap e fun y =>
          { y with forced := false, demandSince := none, holdConfirmed := false, heatTerminated := false }) := by
  simp only [releaseFault, releaseAllowance_enterPhase]

theorem releaseEvap_of_fault (h : (s.evap e).phase = .fault) :
    releaseEvap e s = done [] (allowancePass (releaseFault e s)) := if_pos h

theorem releaseEvap_of_running (h : (s.evap e).phase ≠ .fault) : releaseEvap e s = .error .evapState := if_neg h

end

/-! ## The statement -/

section
variable {f : RequestFrame} {s t : State} {e : Fin 12}

/-- A row of DFC whose only argument is the evaporator is answered as its owner answers for that evaporator. -/
theorem ownerReply_of_evap {c : Instr} {k : Fin 12 → State → Reply} (hc : ownerReply c = oneFin 12 k) (hargs : f.args = be 2 e.1) :
    ownerReply c f.args t = k e t := by
  rw [hc, hargs, oneFin_be (by decide)]

/-- EVAP_SET of settings that fit their fields, by their ranges, the flag and the room, and the phase (R122). -/
theorem evapSet_answers {c : EvapConfig} (h : HandsOff 0x60 f s t) (hargs : f.args = be 2 e.1 ++ c.bytes) (hfits : c.Fits) :
    let x := t.evap e
    (¬c.inRange = true → exec .evapSet s = refusedWith f .badArg t)
    ∧ (c.inRange = true →
      (x.rebinds c → x.phase ≠ .idle → exec .evapSet s = refusedWith f .busy t)
      ∧ (¬(x.rebinds c ∧ x.phase ≠ .idle) → exec .evapSet s = answered f .ok [] (setEvap e c t))) := by
  intro x
  have hreply : ownerReply .evapSet f.args t = evapSetReply (be 2 e.1 ++ c.bytes) t := by rw [hargs]; rfl
  refine ⟨fun hbad => exec_refused rfl h (hreply.trans (evapSetReply_of_range hfits hbad)), fun hgood => ⟨fun hnew hphase => ?_,
    fun hfree => ?_⟩⟩
  · exact exec_refused rfl h (hreply.trans (evapSetReply_of_busy hfits hgood hnew hphase))
  · exact exec_answered rfl h (hreply.trans (evapSetReply_of_free hfits hgood hfree))

end

/-- Settles O52: EVAP_SET by its settings and by what they change, the three requests by the phase, and EVAP_READ by its fields. -/
theorem evaporatorRequestsAnswer : Obligations.EvaporatorRequestsAnswer := by
  refine ⟨availableIn_of_group (g := .configure) rfl, availableIn_of_group (g := .run) rfl, availableIn_of_group (g := .run) rfl,
    availableIn_of_group (g := .run) rfl, availableIn_of_group (g := .always) rfl, ?form, ?set, ?acts, ?read⟩
  case form =>
    intro f s t e1 e0 b r1 r0 rest h hargs hbad
    exact exec_refused rfl h (hargs ▸ evapSetReply_of_bad hbad t)
  case set =>
    intro f s t e c h hargs hnumbers htemps x good unheard
    have hgood : c.inRange = true ↔ good := c.inRange_iff
    obtain ⟨hbad, hset⟩ := evapSet_answers h hargs ⟨hnumbers, htemps⟩
    refine ⟨fun hout => hbad (mt hgood.1 hout), fun hin => ?_⟩
    obtain ⟨hbusy, hfree⟩ := hset (hgood.2 hin)
    refine ⟨hbusy, fun hsame hroom => ?kept, fun hidle hout hon => ?added, fun hidle hon hout => ?removed⟩
    case kept =>
      rw [← setEvap_of_same hsame]
      refine hfree fun ⟨hnew, hphase⟩ => hroom.elim (fun hr => ?_) hphase
      exact hnew.elim (absurd hsame) (absurd hr)
    case added => exact (hfree fun hbusy => hbusy.2 hidle).trans (congrArg (answered f .ok []) (setEvap_of_added hout hon))
    case removed => exact (hfree fun hbusy => hbusy.2 hidle).trans (congrArg (answered f .ok []) (setEvap_of_removed hon hout))
  case acts =>
    intro f s t e hargs x unbid toIdle undefer
    have hrequest : ownerReply .defrostRequest f.args t = onConfigured requestDefrost e t := ownerReply_of_evap rfl hargs
    have habort : ownerReply .defrostAbort f.args t = onConfigured abortDefrost e t := ownerReply_of_evap rfl hargs
    have hrelease : ownerReply .evapRelease f.args t = onConfigured releaseEvap e t := ownerReply_of_evap rfl hargs
    refine ⟨fun hout => ?out, fun hin => ?configured⟩
    case out =>
      exact ⟨fun h => exec_refused rfl h (hrequest.trans (onConfigured_of_not_configured hout)),
        fun h => exec_refused rfl h (habort.trans (onConfigured_of_not_configured hout)),
        fun h => exec_refused rfl h (hrelease.trans (onConfigured_of_not_configured hout))⟩
    case configured =>
      rw [onConfigured_of_configured hin] at hrequest habort hrelease
      refine ⟨fun h hp => exec_answered rfl h (hrequest.trans (requestDefrost_of_idle hp)),
        fun h hp => exec_refused rfl h (hrequest.trans (requestDefrost_of_running hp)),
        fun h => ⟨fun hp => exec_answered rfl h (habort.trans (abortDefrost_of_demanded hp)),
          fun hp => exec_answered rfl h (habort.trans (abortDefrost_of_allotted hp)),
          fun hp => exec_answered rfl h (habort.trans (abortDefrost_of_pumpdown_or_heat hp)),
          fun hp => exec_refused rfl h (habort.trans (abortDefrost_of_other hp))⟩,
        fun h hp => ?fault, fun h hp => exec_refused rfl h (hrelease.trans (releaseEvap_of_running hp))⟩
      rw [releaseEvap_of_fault hp, releaseFault_eq] at hrelease
      exact exec_answered rfl h hrelease
  case read =>
    intro f s t e h hargs x
    exact exec_answered rfl h (ownerReply_of_evap (k := fun e s => done (s.evapResults e) s) rfl hargs)

end Sys2Proof.Machine
end

section
/-! SUPPORT. The alarm table (R145): the record of a pair as the one place where a claim or an acknowledgement acts, and the raise and
clear claims (R148 to R150, R152). -/

namespace Sys2Proof.Machine

/-! ## The record of a pair (R145) -/

theorem AlarmRec.isFor_iff {r : AlarmRec} {k : AlarmKind} {sub : Subject} :
    r.isFor k sub = true ↔ r.kind = k ∧ r.subject = sub := by
  simp [AlarmRec.isFor]

theorem AlarmRec.isFor_eq_false_iff {r : AlarmRec} {k : AlarmKind} {sub : Subject} :
    r.isFor k sub = false ↔ ¬(r.kind = k ∧ r.subject = sub) := by
  rw [← Bool.not_eq_true, AlarmRec.isFor_iff]

/-- None of the records is for the pair. -/
def LacksPair (k : AlarmKind) (sub : Subject) (l : List AlarmRec) : Prop := ∀ q ∈ l, q.isFor k sub = false

/-- The table holds `r` between `front` and `back`, and `r` alone is for the pair. -/
structure Alt.HoldsPair (a : Alt) (k : AlarmKind) (sub : Subject) (front : List AlarmRec) (r : AlarmRec) (back : List AlarmRec) :
    Prop where
  records_eq : a.records = front ++ r :: back
  isFor : r.isFor k sub = true
  lacks_front : LacksPair k sub front
  lacks_back : LacksPair k sub back

/-- What a claim or an acknowledgement for a pair does to the records: `g` on the record for the pair, nothing on the others. -/
def AlarmRec.onPair (k : AlarmKind) (sub : Subject) (g : AlarmRec → Option AlarmRec) (r : AlarmRec) : Option AlarmRec :=
  if r.isFor k sub then g r else some r

section
variable {a : Alt} {k : AlarmKind} {sub : Subject} {front back l : List AlarmRec} {r : AlarmRec} {g : AlarmRec → Option AlarmRec}

theorem append_toList_some : front ++ (some r).toList ++ back = front ++ r :: back := by
  rw [Option.toList_some, List.append_assoc, List.singleton_append]

theorem lacksPair_iff : LacksPair k sub l ↔ ∀ q ∈ l, ¬(q.kind = k ∧ q.subject = sub) :=
  forall₂_congr fun _ _ => AlarmRec.isFor_eq_false_iff

/-- R145: within the bounds a record for a pair is the only one. -/
theorem holdsPair_of_bounded {s : State} (hb : AlarmsBounded s) (hr : s.alt.records = front ++ r :: back)
    (hhit : r.kind = k ∧ r.subject = sub) : s.alt.HoldsPair k sub front r back := by
  obtain ⟨-, -, -, hpairs⟩ := hb
  rw [hr, List.pairwise_append, List.pairwise_cons] at hpairs
  obtain ⟨-, ⟨hback, -⟩, hfront⟩ := hpairs
  obtain ⟨rfl, rfl⟩ := hhit
  refine ⟨hr, AlarmRec.isFor_iff.2 ⟨rfl, rfl⟩, lacksPair_iff.2 fun q hq => hfront q hq r List.mem_cons_self,
    lacksPair_iff.2 fun q hq hhit => hback q hq ⟨hhit.1.symm, hhit.2.symm⟩⟩

theorem LacksPair.filterMap_onPair (h : LacksPair k sub l) : l.filterMap (AlarmRec.onPair k sub g) = l := by
  have hsome : ∀ q ∈ l, AlarmRec.onPair k sub g q = some q := fun q hq => by simp [AlarmRec.onPair, h q hq]
  rw [List.filterMap_congr hsome, List.filterMap_some]

theorem LacksPair.any_eq_false (h : LacksPair k sub l) : l.any (·.isFor k sub) = false :=
  List.any_eq_false.2 fun q hq => by simp [h q hq]

theorem LacksPair.find?_eq_none (h : LacksPair k sub l) : l.find? (·.isFor k sub) = none :=
  List.find?_eq_none.2 fun q hq => by simp [h q hq]

theorem Alt.HoldsPair.filterMap_onPair (h : a.HoldsPair k sub front r back) :
    a.records.filterMap (AlarmRec.onPair k sub g) = front ++ (g r).toList ++ back := by
  have hown : AlarmRec.onPair k sub g r = g r := if_pos h.isFor
  rw [h.records_eq, List.filterMap_append, List.filterMap_cons, hown, h.lacks_front.filterMap_onPair,
    h.lacks_back.filterMap_onPair]
  cases g r <;> simp

theorem Alt.HoldsPair.any_eq_true (h : a.HoldsPair k sub front r back) : a.records.any (·.isFor k sub) = true :=
  List.any_eq_true.2 ⟨r, by simp [h.records_eq], h.isFor⟩

theorem Alt.HoldsPair.find?_eq (h : a.HoldsPair k sub front r back) : a.records.find? (·.isFor k sub) = some r := by
  rw [h.records_eq, List.find?_append, h.lacks_front.find?_eq_none, Option.none_or]
  exact List.find?_cons_of_pos h.isFor

/-- R155: the position of the record counts the records before it. -/
theorem Alt.HoldsPair.position_eq (h : a.HoldsPair k sub front r back) : a.position k sub = some front.length := by
  have hfront : front.findIdx? (·.isFor k sub) = none := List.findIdx?_eq_none_iff.2 h.lacks_front
  rw [Alt.position, h.records_eq, List.findIdx?_append, hfront, List.findIdx?_cons]
  simp [h.isFor]

/-! ## The claims on the table (R148 to R150) -/

variable {now : Time} {v : Option AlarmValue}

/-- R148: a raise of a pair with a record is merged into it. -/
theorem Alt.raise_of_holdsPair (h : a.HoldsPair k sub front r back) :
    a.raise now k sub v = { a with records := front ++ mergeRaise now v r :: back } := by
  have hmap : (a.records.map fun q => if q.isFor k sub then mergeRaise now v q else q)
      = a.records.filterMap (AlarmRec.onPair k sub fun q => some (mergeRaise now v q)) := by
    rw [← List.filterMap_eq_map]
    exact List.filterMap_congr fun q _ => (apply_ite some _ _ _)
  rw [Alt.raise, if_pos h.any_eq_true, hmap, h.filterMap_onPair, append_toList_some]

/-- R149: without a record for the pair, and with a place free, a raise appends one. -/
theorem Alt.raise_of_room (h : LacksPair k sub a.records) (hroom : a.records.length < Config.alarmPlaces) :
    a.raise now k sub v = { a with records := a.records ++ [newAlarm now k sub v] } := by
  rw [Alt.raise, if_neg (by simp [h.any_eq_false]), if_pos hroom]

/-- R149: a full table retires the CLEARED record nearest its head for the new one. -/
theorem Alt.raise_of_cleared (h : LacksPair k sub a.records) (hfull : Config.alarmPlaces ≤ a.records.length)
    (hr : a.records = front ++ r :: back) (hcleared : r.state = .cleared) (hfirst : ∀ q ∈ front, q.state ≠ .cleared) :
    a.raise now k sub v = { a with records := front ++ back ++ [newAlarm now k sub v] } := by
  have hany : a.records.any (·.state = .cleared) = true := List.any_eq_true.2 ⟨r, by simp [hr], by simp [hcleared]⟩
  have herase : a.records.eraseP (·.state = .cleared) = front ++ back := by
    rw [hr, List.eraseP_append_right _ fun q hq => by simp [hfirst q hq], List.eraseP_cons_of_pos (by simp [hcleared])]
  rw [Alt.raise, if_neg (by simp [h.any_eq_false]), if_neg (Nat.not_lt.2 hfull), if_pos hany, herase]

/-- R149: a full table with no CLEARED record counts the raise as unlisted. -/
theorem Alt.raise_of_full (h : LacksPair k sub a.records) (hfull : Config.alarmPlaces ≤ a.records.length)
    (hnone : ∀ q ∈ a.records, q.state ≠ .cleared) :
    a.raise now k sub v = { a with unlisted := min 255 (a.unlisted + 1) } := by
  have hany : a.records.any (·.state = .cleared) = false := List.any_eq_false.2 fun q hq => by simp [hnone q hq]
  rw [Alt.raise, if_neg (by simp [h.any_eq_false]), if_neg (Nat.not_lt.2 hfull), if_neg (by simp [hany])]

/-- R150: a clear of a pair with a record leaves of it what its state says. -/
theorem Alt.clear_of_holdsPair (h : a.HoldsPair k sub front r back) :
    a.clear k sub = { a with records := front ++ (clearRecord r).toList ++ back } :=
  congrArg (fun l => { a with records := l }) h.filterMap_onPair

/-- R150: a clear of a pair without a record changes nothing. -/
theorem Alt.clear_of_lacksPair (h : LacksPair k sub a.records) : a.clear k sub = a :=
  congrArg (fun l => { a with records := l }) h.filterMap_onPair

theorem clearRecord_of_raised (h : r.state = .raised) : clearRecord r = some { r with state := .cleared } := by
  simp only [clearRecord, h]

theorem clearRecord_of_acked (h : r.state = .acked) : clearRecord r = none := by
  simp only [clearRecord, h]

theorem clearRecord_of_cleared (h : r.state = .cleared) : clearRecord r = some r := by
  simp only [clearRecord, h]

/-- R148: the value stays where the raise gives none. -/
theorem mergeRaise_eq : mergeRaise now v r =
    { r with
      state := .raised, lastRaised := now, count := min 255 (r.count + 1)
      value := if v = none then r.value else v } := by
  cases v <;> rfl

end

/-! ## The claims in the state (R152) -/

/-- R152: a raise leaves the raised table and the ALARM cause, and nothing else. -/
theorem raiseAlarm_eq (k : AlarmKind) (sub : Subject) (v : Option AlarmValue) (s : State) : raiseAlarm k sub v s =
    (s.withAlt (s.alt.raise s.moc.clock k sub v)).withLkp
      { s.lkp with pendingCauses := { s.lkp.pendingCauses with alarm := true } } := rfl

/-- Settles O55: a raise by the record of its pair, else by the places left; a clear by the state of that record. -/
theorem alarmTableClaims : Obligations.AlarmTableClaims := by
  unfold Obligations.AlarmTableClaims
  intro s k sub hit
  refine ⟨?raises, ?cleared, ?clearedNothing⟩
  case raises =>
    intro v raised fresh
    have hraise : raiseAlarm k sub v s = raised (s.alt.raise s.moc.clock k sub v) := raiseAlarm_eq k sub v s
    rw [hraise]
    refine ⟨?merged, fun hlacks => ?fresh⟩
    case merged =>
      intro front back r hb hr hhit merged
      have hmerge : mergeRaise s.moc.clock v r = merged := mergeRaise_eq
      rw [Alt.raise_of_holdsPair (holdsPair_of_bounded hb hr hhit), hmerge]
    case fresh =>
      have hlacks := lacksPair_iff.2 hlacks
      exact ⟨fun hroom => congrArg raised (Alt.raise_of_room hlacks hroom),
        fun front back r hfull hr hcleared hfirst =>
          congrArg raised (Alt.raise_of_cleared hlacks hfull hr hcleared hfirst),
        fun hfull hnone => congrArg raised (Alt.raise_of_full hlacks hfull hnone)⟩
  case cleared =>
    intro front back r hb hr hhit
    have hclear : clearAlarm k sub s = s.withAlt { s.alt with records := front ++ (clearRecord r).toList ++ back } :=
      congrArg s.withAlt (Alt.clear_of_holdsPair (holdsPair_of_bounded hb hr hhit))
    refine ⟨fun hst => ?_, fun hst => ?_, fun hst => ?_⟩
    · rw [hclear, clearRecord_of_raised hst, append_toList_some]
    · rw [hclear, clearRecord_of_acked hst, Option.toList_none, List.append_nil]
    · rw [hclear, clearRecord_of_cleared hst, append_toList_some, ← hr]
      rfl
  case clearedNothing =>
    intro hlacks
    exact congrArg s.withAlt (Alt.clear_of_lacksPair (lacksPair_iff.2 hlacks))

end Sys2Proof.Machine
end

section
/-! SUPPORT. The requests to ALT: the form of a pair on the link (R153, 11.5), and what ALARM_LIST, ALARM_ACK, ALARM_READ and
ALARM_OVERFLOW_CLEAR answer to an argument list of the request's form (R153 to R156). -/

namespace Sys2Proof.Machine

/-! ## The form of a pair (R146, 11.5) -/

/-- The 16-bit number that spells a subject (11.5). -/
def Subject.number : Subject → Nat
  | .door d => d.1
  | .room r => r.1
  | .probe p => p.1
  | .pallet h => h.code
  | .evap e => e.1
  | .terminal t => t.1
  | .station st => (laneSlot st.lane).1 * 256 + st.address
  | .site => 0

/-- The code of a subject's type (11.5). -/
def Subject.type : Subject → Nat
  | .door _ => 1
  | .room _ => 2
  | .probe _ => 3
  | .pallet _ => 4
  | .evap _ => 5
  | .terminal _ => 6
  | .station _ => 7
  | .site => 8

theorem StationId.address_lt (st : StationId) : st.address < 24 := by
  cases st <;> simp only [StationId.address] <;> omega

/-- A station's number spells its lane in the high byte. -/
theorem number_station_div (st : StationId) : (Subject.station st).number / 256 = (laneSlot st.lane).1 := by
  have haddress := st.address_lt
  simp only [Subject.number]
  omega

/-- A station's number spells its address in the low byte. -/
theorem number_station_mod (st : StationId) : (Subject.station st).number % 256 = st.address := by
  have haddress := st.address_lt
  simp only [Subject.number]
  omega

theorem Subject.number_lt (sub : Subject) : sub.number < 65536 := by
  cases sub with
  | pallet h => exact h.code_lt
  | station st =>
    have haddress := st.address_lt
    simp only [Subject.number]
    omega
  | _ => simp only [Subject.number]; omega

theorem Subject.type_lt (sub : Subject) : sub.type < 256 := by
  cases sub <;> simp [Subject.type]

/-- A subject's bytes are its type and its number. -/
theorem Subject.bytes_eq (sub : Subject) : sub.bytes = BitVec.ofNat 8 sub.type :: be 2 sub.number := by
  cases sub with
  | station st =>
    have hlow : BitVec.ofNat 8 (Subject.station st).number = BitVec.ofNat 8 st.address := by
      rw [← number_station_mod]
      exact BitVec.eq_of_toNat_eq (by simp only [BitVec.toNat_ofNat, Nat.mod_mod, Nat.reducePow])
    rw [be_two, number_station_div, hlow]
    rfl
  | _ => rfl

theorem be_two_inj {m n : Nat} (hm : m < 65536) (hn : n < 65536) : be 2 m = be 2 n ↔ m = n := by
  refine ⟨fun h => ?_, congrArg _⟩
  have hval := congrArg beNat h
  rw [beNat_be, beNat_be] at hval
  omega

/-- A type byte and a 16-bit number are a subject's bytes exactly if they are its type and its number. -/
theorem Subject.bytes_eq_iff {sub : Subject} {type : Byte} {n : Nat} (hn : n < 65536) :
    sub.bytes = type :: be 2 n ↔ sub.type = type.toNat ∧ sub.number = n := by
  have htype : BitVec.ofNat 8 sub.type = type ↔ sub.type = type.toNat := by
    rw [← BitVec.toNat_inj, BitVec.toNat_ofNat, Nat.mod_eq_of_lt sub.type_lt]
  rw [Subject.bytes_eq, List.cons.injEq, be_two_inj sub.number_lt hn, htype]

theorem code_readHandle {n : Nat} (hn : n < 65536) : (readHandle n).code = n := by
  simp only [readHandle, Handle.code, Fin.val_ofNat]
  omega

/-- R146: a subject is read back from its type and number, but for a terminal's station, which no alarm names so. -/
theorem readSubject_number {sub : Subject} (h : ∀ x, sub ≠ .station (.term x)) : readSubject sub.type sub.number = some sub := by
  cases sub with
  | station st =>
    simp only [Subject.type, readSubject, number_station_div, number_station_mod]
    cases st with
    | term x => exact absurd rfl (h x)
    | _ => simp [laneSlot, StationId.lane, StationId.address]
  | _ => simp [readSubject, Subject.type, Subject.number]

/-- What is read by a number in range is of that number. -/
theorem exists_of_map_readFin {n m : Nat} {c : Fin m → Subject} {sub : Subject} (h : (readFin n m).map c = some sub) :
    ∃ i : Fin m, sub = c i ∧ i.1 = n := by
  rcases Nat.lt_or_ge n m with hn | hn
  · rw [readFin, dif_pos hn] at h
    exact ⟨⟨n, hn⟩, (Option.some.inj h).symm, rfl⟩
  · rw [readFin_of_le hn] at h
    cases h

/-- What is read as a subject has that type and number, and is no terminal's station. -/
theorem number_of_readSubject {type n : Nat} {sub : Subject} (hn : n < 65536) (h : readSubject type n = some sub) :
    sub.type = type ∧ sub.number = n ∧ ∀ x, sub ≠ .station (.term x) := by
  unfold readSubject at h
  split at h
  case h_4 => cases h; exact ⟨rfl, code_readHandle hn, by simp⟩
  case h_7 =>
    split at h
    case h_4 => cases h
    all_goals
      obtain ⟨i, rfl, hi⟩ := exists_of_map_readFin h
      refine ⟨rfl, ?_, by simp⟩
      simp only [Subject.number, laneSlot, StationId.lane, StationId.address]
      omega
  case h_8 =>
    split at h
    next hzero => cases h; exact ⟨rfl, hzero.symm, by simp⟩
    next => cases h
  case h_9 => cases h
  all_goals
    obtain ⟨i, rfl, hi⟩ := exists_of_map_readFin h
    exact ⟨rfl, hi, by simp⟩

theorem readSubject_eq_some_iff {type n : Nat} {sub : Subject} (hn : n < 65536) :
    readSubject type n = some sub ↔ sub.type = type ∧ sub.number = n ∧ ∀ x, sub ≠ .station (.term x) := by
  refine ⟨number_of_readSubject hn, ?_⟩
  rintro ⟨rfl, rfl, hterm⟩
  exact readSubject_number hterm

@[simp] theorem readAlarmKind_byte (k : AlarmKind) : readAlarmKind k.byte = some k := by cases k <;> rfl

theorem readAlarmKind_eq_some_iff {b : Byte} {k : AlarmKind} : readAlarmKind b = some k ↔ b = k.byte := by
  refine ⟨fun h => BitVec.eq_of_toNat_eq ?_, fun h => h ▸ readAlarmKind_byte k⟩
  unfold readAlarmKind at h
  split at h <;> cases h <;> assumption

/-- R153: the bytes that name a pair. -/
theorem readPair_eq_some_iff {kind type : Byte} {n : Nat} {k : AlarmKind} {sub : Subject} (hn : n < 65536) :
    readPair kind type n = some (k, sub) ↔
      kind = k.byte ∧ type.toNat = k.subjectType ∧ sub.bytes = type :: be 2 n ∧ ∀ x, sub ≠ .station (.term x) := by
  have hsub : (sub.bytes = type :: be 2 n ∧ ∀ x, sub ≠ .station (.term x)) ↔ readSubject type.toNat n = some sub := by
    rw [readSubject_eq_some_iff hn, Subject.bytes_eq_iff hn, and_assoc]
  rw [hsub, ← readAlarmKind_eq_some_iff, readPair]
  cases readAlarmKind kind with
  | none => simp
  | some named =>
    by_cases htype : type.toNat = named.subjectType
    · simp only [if_pos htype, Option.map_eq_some_iff, Prod.mk.injEq, Option.some.injEq]
      constructor
      · rintro ⟨_, hread, rfl, rfl⟩
        exact ⟨rfl, htype, hread⟩
      · rintro ⟨rfl, -, hread⟩
        exact ⟨sub, hread, rfl, rfl⟩
    · simp only [if_neg htype, reduceCtorEq, false_iff]
      rintro ⟨hnamed, hk, -⟩
      exact htype (Option.some.inj hnamed ▸ hk)

/-- R153: ALL is the form of no pair. -/
theorem not_all_of_readPair {kind type : Byte} {n : Nat} {p : AlarmKind × Subject} (h : readPair kind type n = some p) :
    ¬(kind = 0#8 ∧ type = 0#8 ∧ n = 0) := by
  rintro ⟨rfl, -, -⟩
  cases h

/-! ## ALARM_LIST (R154) -/

section
variable {k : AlarmKind} {sub : Subject} {kind type : Byte} {n : Nat} {s : State} {front back : List AlarmRec} {r : AlarmRec}

theorem alarmListReply_be (hn : n < 64) : alarmListReply (be 2 n) s = done (s.alt.listResults n) s := by
  have hnum : num (BitVec.ofNat 8 (n / 256)) (BitVec.ofNat 8 n) = n := num_be (by omega)
  simp only [alarmListReply, be_two, hnum, if_neg (Nat.not_lt.2 (Nat.le_of_lt_succ hn))]

/-- R154: the two numbers are bytes of their own. -/
theorem Alt.listResults_eq (a : Alt) (start : Nat) : a.listResults start =
    [BitVec.ofNat 8 a.records.length, BitVec.ofNat 8 a.unlisted]
      ++ listOf (fun x => alarmBytes x.2 x.1) ((a.records.zipIdx.drop start).take 8) := by
  simp only [Alt.listResults, num1, be_one, List.singleton_append]

/-! ## ALARM_ACK (R153) -/

theorem ackRecord_of_raised (h : r.state = .raised) : ackRecord r = some { r with state := .acked } := by
  simp only [ackRecord, h]

theorem ackRecord_of_cleared (h : r.state = .cleared) : ackRecord r = none := by
  simp only [ackRecord, h]

/-- R153: a CLEARED record is retired, and any other is ACKED. -/
theorem ackRecord_eq (r : AlarmRec) : ackRecord r = if r.state = .cleared then none else some { r with state := .acked } := by
  obtain ⟨_, _, st, _, _, _, _⟩ := r
  cases st <;> rfl

theorem ackPair_of_lacksPair (h : LacksPair k sub s.alt.records) : ackPair k sub s = .error .notFound := by
  simp only [ackPair, h.find?_eq_none]

theorem ackPair_of_acked (h : s.alt.HoldsPair k sub front r back) (hst : r.state = .acked) :
    ackPair k sub s = .error .already := by
  simp only [ackPair, h.find?_eq, if_pos hst]

theorem ackPair_of_not_acked (h : s.alt.HoldsPair k sub front r back) (hst : r.state ≠ .acked) :
    ackPair k sub s = done [] (s.withAlt { s.alt with records := front ++ (ackRecord r).toList ++ back }) := by
  rw [← h.filterMap_onPair]
  simp only [ackPair, h.find?_eq, if_neg hst]
  rfl

section
variable (hn : n < 65536)
include hn

theorem alarmAckReply_of_all (hall : kind = 0#8 ∧ type = 0#8 ∧ n = 0) : alarmAckReply ([kind, type] ++ be 2 n) s = ackAll s := by
  simp only [alarmAckReply, be_two, List.cons_append, List.nil_append, num_be hn, if_pos hall]

theorem alarmAckReply_of_no_pair (hall : ¬(kind = 0#8 ∧ type = 0#8 ∧ n = 0)) (hp : readPair kind type n = none) :
    alarmAckReply ([kind, type] ++ be 2 n) s = .error .badArg := by
  simp only [alarmAckReply, be_two, List.cons_append, List.nil_append, num_be hn, if_neg hall, hp]

theorem alarmAckReply_of_pair (hp : readPair kind type n = some (k, sub)) :
    alarmAckReply ([kind, type] ++ be 2 n) s = ackPair k sub s := by
  simp only [alarmAckReply, be_two, List.cons_append, List.nil_append, num_be hn, if_neg (not_all_of_readPair hp), hp]

/-! ## ALARM_READ (R155) -/

theorem alarmReadReply_of_no_pair (hp : readPair kind type n = none) :
    alarmReadReply ([kind, type] ++ be 2 n) s = .error .badArg := by
  simp only [alarmReadReply, be_two, List.cons_append, List.nil_append, num_be hn, hp]

theorem alarmReadReply_of_pair (hp : readPair kind type n = some (k, sub)) :
    alarmReadReply ([kind, type] ++ be 2 n) s = readAlarm k sub s := by
  simp only [alarmReadReply, be_two, List.cons_append, List.nil_append, num_be hn, hp]

end

theorem readAlarm_of_lacksPair (h : LacksPair k sub s.alt.records) : readAlarm k sub s = .error .notFound := by
  have hpos : s.alt.position k sub = none := List.findIdx?_eq_none_iff.2 h
  simp only [readAlarm, hpos]

theorem readAlarm_of_holdsPair (h : s.alt.HoldsPair k sub front r back) :
    readAlarm k sub s = done (alarmBytes front.length r) s := by
  simp only [readAlarm, h.position_eq, h.find?_eq]

end

/-! ## The statement -/

section
variable {f : RequestFrame} {s t : State} {k : AlarmKind} {sub : Subject} {kind type : Byte} {n : Nat}

/-- ALARM_ACK of a pair is answered as its owner acknowledges the pair. -/
theorem ownerReply_alarmAck_of_pair (hn : n < 65536) (hargs : f.args = [kind, type] ++ be 2 n)
    (hp : readPair kind type n = some (k, sub)) : ownerReply .alarmAck f.args t = ackPair k sub t :=
  hargs ▸ alarmAckReply_of_pair hn hp

/-- ALARM_READ of a pair is answered as its owner reads the pair. -/
theorem ownerReply_alarmRead_of_pair (hn : n < 65536) (hargs : f.args = [kind, type] ++ be 2 n)
    (hp : readPair kind type n = some (k, sub)) : ownerReply .alarmRead f.args t = readAlarm k sub t :=
  hargs ▸ alarmReadReply_of_pair hn hp

/-- ALARM_ACK of a pair with a record, by the record's state (R153). -/
theorem alarmAck_of_holdsPair {front back : List AlarmRec} {r : AlarmRec} (h : HandsOff 0x71 f s t)
    (hreply : ownerReply .alarmAck f.args t = ackPair k sub t) (hr : t.alt.HoldsPair k sub front r back) :
    (r.state = .raised → exec .alarmAck s = answered f .ok []
      (t.withAlt { t.alt with records := front ++ { r with state := .acked } :: back }))
    ∧ (r.state = .cleared → exec .alarmAck s = answered f .ok [] (t.withAlt { t.alt with records := front ++ back }))
    ∧ (r.state = .acked → exec .alarmAck s = refusedWith f .already t) := by
  have hack (hst : r.state ≠ .acked) : exec .alarmAck s = answered f .ok []
      (t.withAlt { t.alt with records := front ++ (ackRecord r).toList ++ back }) :=
    exec_answered rfl h (hreply.trans (ackPair_of_not_acked hr hst))
  refine ⟨fun hst => ?_, fun hst => ?_, fun hst => exec_refused rfl h (hreply.trans (ackPair_of_acked hr hst))⟩
  · rw [hack (by simp [hst]), ackRecord_of_raised hst, append_toList_some]
  · rw [hack (by simp [hst]), ackRecord_of_cleared hst, Option.toList_none, List.append_nil]

end

/-- Settles O56: each request by the form of its arguments, then by the record of the pair it names. -/
theorem alarmRequestsAnswer : Obligations.AlarmRequestsAnswer := by
  unfold Obligations.AlarmRequestsAnswer
  refine ⟨availableIn_of_group (g := .always) rfl, availableIn_of_group (g := .always) rfl, availableIn_of_group (g := .always) rfl,
    availableIn_of_group (g := .always) rfl, ?list, ?pair, fun k sub kind type n hn => readPair_eq_some_iff hn, ?overflow⟩
  case list =>
    intro f s t n h hn hargs
    rw [← Alt.listResults_eq]
    exact exec_answered rfl h (hargs ▸ alarmListReply_be hn)
  case pair =>
    intro f s t kind type n hn hargs all
    refine ⟨fun h hall => ?all, fun h hall hp => exec_refused rfl h (hargs ▸ alarmAckReply_of_no_pair hn hall hp),
      fun h hp => exec_refused rfl h (hargs ▸ alarmReadReply_of_no_pair hn hp), ?one⟩
    case all =>
      have hacks : t.alt.records.filterMap ackRecord = t.alt.records.filterMap fun r =>
          if r.state = .cleared then none else some { r with state := .acked } :=
        List.filterMap_congr fun r _ => ackRecord_eq r
      rw [← hacks]
      exact exec_answered rfl h (hargs ▸ alarmAckReply_of_all hn hall)
    case one =>
      intro k sub hp hit
      have hack := ownerReply_alarmAck_of_pair (t := t) hn hargs hp
      have hread := ownerReply_alarmRead_of_pair (t := t) hn hargs hp
      refine ⟨fun hlacks => ?_, fun front back r hb hr hhit => ?_⟩
      · have hlacks := lacksPair_iff.2 hlacks
        exact ⟨fun h => exec_refused rfl h (hack.trans (ackPair_of_lacksPair hlacks)),
          fun h => exec_refused rfl h (hread.trans (readAlarm_of_lacksPair hlacks))⟩
      · have hholds := holdsPair_of_bounded hb hr hhit
        exact ⟨fun h => alarmAck_of_holdsPair h hack hholds,
          fun h => exec_answered rfl h (hread.trans (readAlarm_of_holdsPair hholds))⟩
  case overflow =>
    intro f s t h hargs
    exact exec_answered rfl h (hargs ▸ rfl)

end Sys2Proof.Machine
end

section
/-! SUPPORT. The frames on the link and the answers on the lanes, read back (R160, R172, R198, R200, R204): each reader of the layouts as
the inverse of its writer, the reports of a lane, and the judgement of the bytes received. -/

namespace Sys2Proof.Machine

/-! ## Numbers read and written again -/

/-- The last byte of a number is its low byte. -/
theorem be_succ_eq_append (k n : Nat) : be (k + 1) n = be k (n / 256) ++ [BitVec.ofNat 8 n] := by
  induction k with
  | zero => simp [be]
  | succ k ih =>
    have hhigh : n / 256 ^ (k + 1) = n / 256 / 256 ^ k := by rw [Nat.div_div_eq_div_mul, Nat.pow_succ']
    rw [be, ih, hhigh]
    rfl

/-- Bytes are spelled again by the number that they spell. -/
theorem be_beNat (bs : List Byte) : be bs.length (beNat bs) = bs := by
  induction bs using List.reverseRecOn with
  | nil => rfl
  | append_singleton bs b ih =>
    have hb := b.isLt
    have hhigh : (beNat bs * 256 + b.toNat) / 256 = beNat bs := by omega
    have hlow : BitVec.ofNat 8 (beNat bs * 256 + b.toNat) = b :=
      BitVec.eq_of_toNat_eq (by rw [BitVec.toNat_ofNat]; omega)
    rw [List.length_append, List.length_singleton, be_succ_eq_append, beNat_append, hhigh, hlow, ih]

theorem beNat_eq_iff {bs : List Byte} {n : Nat} (hn : n < 256 ^ bs.length) : beNat bs = n ↔ bs = be bs.length n := by
  refine ⟨fun h => by rw [← h, be_beNat], fun h => ?_⟩
  rw [h, beNat_be, Nat.mod_eq_of_lt hn]

theorem ofNat_beNat_eq_iff {bs : List Byte} {t : Tag} (hlen : bs.length = 6) : BitVec.ofNat 48 (beNat bs) = t ↔ bs = tag6 t := by
  have hlt := beNat_lt bs
  have hval : BitVec.ofNat 48 (beNat bs) = t ↔ beNat bs = t.toNat := by
    rw [← BitVec.toNat_inj, BitVec.toNat_ofNat, Nat.mod_eq_of_lt (by simpa [hlen] using hlt)]
  rw [hval, beNat_eq_iff (hlen ▸ t.isLt), hlen, tag6]

theorem beNat_pair (hi lo : Byte) : beNat [hi, lo] = (hi ++ lo).toNat := by
  rw [BitVec.toNat_append, ← Nat.shiftLeft_add_eq_or_of_lt lo.isLt, Nat.shiftLeft_eq]
  simp [beNat]

theorem beNat_pair_lt (hi lo : Byte) : beNat [hi, lo] < 65536 := beNat_pair hi lo ▸ (hi ++ lo).isLt

/-- Two bytes are read as a temperature exactly if they are its bytes. -/
theorem readTemp_eq_iff {hi lo : Byte} {t : Temp} :
    readTemp hi lo = t ↔ (-32768 ≤ t ∧ t ≤ 32767) ∧ [hi, lo] = temp2 t := by
  constructor
  · rintro rfl
    have hlow := BitVec.le_toInt (hi ++ lo)
    have hhigh := BitVec.toInt_le (x := hi ++ lo)
    refine ⟨⟨hlow, hhigh⟩, ?_⟩
    rw [temp2, readTemp, BitVec.ofInt_toInt, ← beNat_pair]
    exact (be_beNat [hi, lo]).symm
  · rintro ⟨⟨hlow, hhigh⟩, hbytes⟩
    rw [temp2, be_two] at hbytes
    obtain ⟨rfl, rfl⟩ : hi = _ ∧ lo = _ := by simpa using hbytes
    exact temp_be hlow hhigh

/-! ## Codes read and written again (R201, R204) -/

theorem readFlag_eq_some_iff {b : Byte} {v : Bool} : readFlag b = some v ↔ [b] = flag1 v := by
  refine ⟨fun h => ?_, fun h => List.head_eq_of_cons_eq h ▸ readFlag_flag v⟩
  unfold readFlag at h
  split at h
  next hb => cases h; exact congrArg ([·]) hb
  next =>
    split at h
    next hb => cases h; exact congrArg ([·]) hb
    next => cases h

theorem readLeaf_eq_some_iff {b : Byte} {l : Leaf} : readLeaf b = some l ↔ b = l.byte := by
  refine ⟨fun h => BitVec.eq_of_toNat_eq ?_, fun h => h ▸ by cases l <;> rfl⟩
  unfold readLeaf at h
  split at h <;> cases h <;> assumption

theorem readCtlPhase_eq_some_iff {b : Byte} {p : CtlPhase} : readCtlPhase b = some p ↔ b = p.byte := by
  refine ⟨fun h => BitVec.eq_of_toNat_eq ?_, fun h => h ▸ by cases p <;> rfl⟩
  unfold readCtlPhase at h
  split at h <;> cases h <;> assumption

theorem readIndication_eq_some_iff {b : Byte} {i : Indication} : readIndication b = some i ↔ b = i.byte := by
  refine ⟨fun h => BitVec.eq_of_toNat_eq ?_, fun h => h ▸ by cases i <;> rfl⟩
  unfold readIndication at h
  split at h <;> cases h <;> assumption

/-- R104: three bytes are read as a probe entry exactly if they are its bytes. -/
theorem readProbeEntry_eq_some_iff {hi lo ind : Byte} {p : ProbeEntry} :
    readProbeEntry hi lo ind = some p ↔ (-32768 ≤ p.reading ∧ p.reading ≤ 32767) ∧ [hi, lo, ind] = p.bytes := by
  obtain ⟨reading, indication⟩ := p
  have hbytes : [hi, lo, ind] = ProbeEntry.bytes ⟨reading, indication⟩ ↔ [hi, lo] = temp2 reading ∧ ind = indication.byte := by
    simp [ProbeEntry.bytes, temp2, be_two, and_assoc]
  rw [hbytes, ← and_assoc, ← readTemp_eq_iff, ← readIndication_eq_some_iff, readProbeEntry]
  simp [and_comm]

/-- R204: the kind bits of a place on the lane. -/
theorem reportPlaceOk_iff {p : Nat} (hp : p < 65536) : reportPlaceOk p = true ↔ 8192 ≤ p ∧ p < 57344 := by
  simp only [reportPlaceOk, Bool.and_eq_true, decide_eq_true_eq]
  omega

/-- A place of the lane's form reads back (R204). -/
theorem place_of_fits {p : Nat} (h : 8192 ≤ p ∧ p < 57344) :
    reportPlaceOk p = true ∧ beNat [BitVec.ofNat 8 (p / 256), BitVec.ofNat 8 p] = p := by
  have hp : p < 65536 := by omega
  exact ⟨(reportPlaceOk_iff hp).2 h, num_be hp⟩

theorem readProbeEntry_bytes {p : ProbeEntry} (h : -32768 ≤ p.reading ∧ p.reading ≤ 32767) :
    readProbeEntry (BitVec.ofNat 8 ((BitVec.ofInt 16 p.reading).toNat / 256)) (BitVec.ofNat 8 (BitVec.ofInt 16 p.reading).toNat)
      p.indication.byte = some p :=
  readProbeEntry_eq_some_iff.2 ⟨h, by rw [ProbeEntry.bytes, temp2, be_two]; rfl⟩

/-! ## Reports (R160, R204) -/

/-- What is read as a report is within its fields, and its kind and contents are those read. -/
theorem bytes_of_readReport {lane : Lane} {kind : Byte} {contents : List Byte} {rep : Report}
    (h : readReport lane kind contents = some rep) : rep.fits ∧ kind = rep.kindByte ∧ contents = rep.contents := by
  unfold readReport at h
  split at h
  case h_1 hkind =>
    split at h
    next hleaf hseal htrailer =>
      cases h
      rw [readLeaf_eq_some_iff] at hleaf
      rw [readFlag_eq_some_iff] at hseal htrailer
      refine ⟨trivial, BitVec.eq_of_toNat_eq hkind, ?_⟩
      rw [Report.contents, ← hleaf, ← hseal, ← htrailer]
      rfl
    next => cases h
  case h_2 hkind =>
    split at h
    next h0 h1 h2 h3 =>
      cases h
      obtain ⟨hfits0, hbytes0⟩ := readProbeEntry_eq_some_iff.1 h0
      obtain ⟨hfits1, hbytes1⟩ := readProbeEntry_eq_some_iff.1 h1
      obtain ⟨hfits2, hbytes2⟩ := readProbeEntry_eq_some_iff.1 h2
      obtain ⟨hfits3, hbytes3⟩ := readProbeEntry_eq_some_iff.1 h3
      refine ⟨by simp [Report.fits, hfits0, hfits1, hfits2, hfits3], BitVec.eq_of_toNat_eq hkind, ?_⟩
      rw [Report.contents, ← hbytes0, ← hbytes1, ← hbytes2, ← hbytes3]
      rfl
    next => cases h
  case h_3 hkind =>
    split at h
    next hphase hheater hextension =>
      cases h
      rw [readCtlPhase_eq_some_iff] at hphase
      rw [readFlag_eq_some_iff] at hheater hextension
      obtain ⟨hfits, hcoil⟩ := readTemp_eq_iff.1 rfl
      refine ⟨hfits, BitVec.eq_of_toNat_eq hkind, ?_⟩
      rw [Report.contents, ← hphase, ← hheater, ← hextension, ← hcoil]
      rfl
    next => cases h
  case h_4 hkind =>
    obtain ⟨hplace, heq⟩ := Option.ite_none_right_eq_some.1 h
    cases heq
    refine ⟨(reportPlaceOk_iff (beNat_pair_lt _ _)).1 hplace, BitVec.eq_of_toNat_eq hkind, ?_⟩
    rw [Report.contents, ← (ofNat_beNat_eq_iff rfl).1 rfl]
    exact congrArg ([_, _, _, _, _, _] ++ ·) (be_beNat [_, _]).symm
  case h_5 hkind =>
    obtain ⟨hplace, heq⟩ := Option.ite_none_right_eq_some.1 h
    cases heq
    exact ⟨(reportPlaceOk_iff (beNat_pair_lt _ _)).1 hplace, BitVec.eq_of_toNat_eq hkind, (be_beNat [_, _]).symm⟩
  case h_6 r hkind =>
    cases h
    exact ⟨r.isLt, BitVec.eq_of_toNat_eq hkind, by simp [Report.contents, num1, be_one]⟩
  case h_7 hkind =>
    cases h
    exact ⟨trivial, BitVec.eq_of_toNat_eq hkind, (ofNat_beNat_eq_iff rfl).1 rfl⟩
  case h_8 hkind =>
    obtain ⟨b, hb, rfl⟩ := Option.map_eq_some_iff.1 h
    exact ⟨trivial, BitVec.eq_of_toNat_eq hkind, readFlag_eq_some_iff.1 hb⟩
  case h_9 => cases h

/-- A report within its fields is read from its kind and contents. -/
theorem readReport_contents {rep : Report} (h : rep.fits) : readReport rep.lane rep.kindByte rep.contents = some rep := by
  cases rep with
  | door r =>
    have hleaf : readLeaf r.leaf.byte = some r.leaf := readLeaf_eq_some_iff.2 rfl
    simp [readReport, Report.lane, Report.kindByte, Report.contents, flag1, hleaf]
  | probes p0 p1 p2 p3 =>
    obtain ⟨hfits0, hfits1, hfits2, hfits3⟩ : _ ∧ _ ∧ _ ∧ _ := by simpa [Report.fits] using h
    simp only [readReport, Report.lane, Report.kindByte, Report.contents, List.cons_append, List.nil_append, BitVec.reduceToNat,
      ProbeEntry.bytes, temp2, be_two, readProbeEntry_bytes hfits0, readProbeEntry_bytes hfits1,
      readProbeEntry_bytes hfits2, readProbeEntry_bytes hfits3]
  | controller r =>
    obtain ⟨hlow, hhigh⟩ := h
    have hphase : readCtlPhase r.phase.byte = some r.phase := readCtlPhase_eq_some_iff.2 rfl
    simp only [readReport, Report.lane, Report.kindByte, Report.contents, List.cons_append, List.nil_append, BitVec.reduceToNat,
      flag1, temp2, be_two, readFlag_flag, hphase, temp_be hlow hhigh]
  | picked t p =>
    obtain ⟨hplace, hnum⟩ := place_of_fits h
    simp only [readReport, Report.lane, Report.kindByte, Report.contents, List.cons_append, List.nil_append, BitVec.reduceToNat,
      tag6, be_six, be_two, hnum, hplace, tag_be, if_true]
  | dropped p =>
    obtain ⟨hplace, hnum⟩ := place_of_fits h
    simp [readReport, Report.lane, Report.kindByte, Report.contents, be_two, hnum, hplace]
  | abandon r =>
    simp [readReport, Report.lane, Report.kindByte, Report.contents, num1, be_one, Nat.mod_eq_of_lt (show r < 256 from h)]
  | submit t => simp only [readReport, Report.lane, Report.kindByte, Report.contents, BitVec.reduceToNat, tag6, be_six, tag_be]
  | ready hand => simp [readReport, Report.lane, Report.kindByte, Report.contents, flag1]

/-- R160, R204: a kind and contents spell a report on a lane exactly if they are that report's, of that lane and within its fields. -/
theorem readReport_eq_some_iff {lane : Lane} {kind : Byte} {contents : List Byte} {rep : Report} :
    readReport lane kind contents = some rep ↔
      rep.lane = lane ∧ rep.fits ∧ kind = rep.kindByte ∧ contents = rep.contents := by
  refine ⟨fun h => ⟨lane_of_readReport h, bytes_of_readReport h⟩, ?_⟩
  rintro ⟨rfl, hfits, rfl, rfl⟩
  exact readReport_contents hfits

theorem length_contents_lt (rep : Report) : rep.contents.length < 256 := by
  cases rep <;> simp [Report.contents, flag1, temp2, tag6, num1, ProbeEntry.bytes]

/-! ## Answers (R160, R198, R204) -/

/-- R198: a message passes the check exactly if it ends in the check of the bytes before it. -/
theorem stripCheck_eq_some_iff {bs body : List Byte} : stripCheck bs = some body ↔ bs = withCheck body := by
  refine ⟨fun h => ?_, fun h => h ▸ stripCheck_withCheck body⟩
  obtain ⟨⟨-, hcheck⟩, heq⟩ := Option.ite_none_right_eq_some.1 h
  rw [← Option.some.inj heq, withCheck, ← hcheck, List.take_append_drop]

/-- R198: a message whose last two bytes are not its check is refused. -/
theorem stripCheck_append_of_ne {body : List Byte} {c1 c0 : Byte} (h : [c1, c0] ≠ be 2 (crc body).toNat) :
    stripCheck (body ++ [c1, c0]) = none := by
  refine Option.eq_none_iff_forall_ne_some.2 fun other hstrip => h ?_
  obtain ⟨rfl, hcheck⟩ := List.append_inj' (stripCheck_eq_some_iff.1 hstrip) (by simp)
  exact hcheck

section
variable {st : StationId} {seqNo : Byte} {bs : List Byte}

theorem judgeAnswer_of_no_check (h : stripCheck bs = none) : judgeAnswer st seqNo bs = none := by
  simp only [judgeAnswer, h]

/-- What is judged in an answer with the right check (R160). -/
theorem judgeAnswer_withCheck (addr q kind len : Byte) (contents : List Byte) :
    judgeAnswer st seqNo (withCheck ([addr, q, kind, len] ++ contents)) =
      if addr.toNat = st.address ∧ q = seqNo ∧ len.toNat = contents.length then readReport st.lane kind contents else none := by
  simp only [judgeAnswer, stripCheck_withCheck, List.cons_append, List.nil_append]

/-- R160: an answer of another address, sequence number or length, or with contents of no report of the lane, is refused. -/
theorem judgeAnswer_append_of_bad {addr q kind len c1 c0 : Byte} {contents : List Byte}
    (h : addr.toNat ≠ st.address ∨ q ≠ seqNo ∨ len.toNat ≠ contents.length ∨ readReport st.lane kind contents = none) :
    judgeAnswer st seqNo ([addr, q, kind, len] ++ contents ++ [c1, c0]) = none := by
  by_cases hcheck : [c1, c0] = be 2 (crc ([addr, q, kind, len] ++ contents)).toNat
  · rw [hcheck]
    refine (judgeAnswer_withCheck addr q kind len contents).trans (ite_eq_right_iff.2 ?_)
    rintro ⟨haddr, hq, hlen⟩
    exact ((h.resolve_left (not_not_intro haddr)).resolve_left (not_not_intro hq)).resolve_left (not_not_intro hlen)
  · exact judgeAnswer_of_no_check (stripCheck_append_of_ne hcheck)

/-- R160: the parts of a good answer. -/
theorem exists_of_judgeAnswer {rep : Report} (h : judgeAnswer st seqNo bs = some rep) : ∃ addr q kind len contents,
    bs = withCheck ([addr, q, kind, len] ++ contents)
    ∧ (addr.toNat = st.address ∧ q = seqNo ∧ len.toNat = contents.length) ∧ readReport st.lane kind contents = some rep := by
  unfold judgeAnswer at h
  split at h
  next hstrip =>
    exact ⟨_, _, _, _, _, stripCheck_eq_some_iff.1 hstrip, Option.ite_none_right_eq_some.1 h⟩
  next => cases h

theorem toNat_eq_address_iff {addr : Byte} : addr.toNat = st.address ↔ addr = BitVec.ofNat 8 st.address := by
  have haddress := st.address_lt
  rw [← BitVec.toNat_inj, BitVec.toNat_ofNat, Nat.mod_eq_of_lt (by omega)]

/-- R160, R204: which bytes are a good answer with a given report. -/
theorem judgeAnswer_eq_some_iff {rep : Report} :
    judgeAnswer st seqNo bs = some rep ↔ rep.lane = st.lane ∧ rep.fits ∧ bs = answerBytes st seqNo rep := by
  have hlen := length_contents_lt rep
  constructor
  · intro h
    obtain ⟨addr, q, kind, len, contents, rfl, ⟨haddr, rfl, hcount⟩, hread⟩ := exists_of_judgeAnswer h
    obtain ⟨hlane, hfits, rfl, rfl⟩ := readReport_eq_some_iff.1 hread
    refine ⟨hlane, hfits, ?_⟩
    rw [answerBytes, num1, be_one, ← hcount, BitVec.ofNat_toNat, ← toNat_eq_address_iff.1 haddr]
    rfl
  · rintro ⟨hlane, hfits, rfl⟩
    have hcount : (BitVec.ofNat 8 rep.contents.length).toNat = rep.contents.length := Nat.mod_eq_of_lt hlen
    rw [← readReport_contents hfits, hlane, answerBytes, num1, be_one]
    exact (judgeAnswer_withCheck _ _ _ _ _).trans (if_pos ⟨toNat_eq_address_iff.2 rfl, rfl, hcount⟩)

end

/-! ## Request frames (R172, R198, R200) -/

section
variable {tag urgency code n : Byte} {more bs : List Byte}

/-- R172: any other first byte than those of fill and of a request frame. -/
theorem judgeFrame_of_first {b : Byte} (rest : List Byte) (hlow : b ≠ 0x00#8) (hhigh : b ≠ 0xFF#8) (hstart : b ≠ 0xA5#8) :
    judgeFrame (b :: rest) = .bad :=
  (if_neg (not_or.2 ⟨hlow, hhigh⟩)).trans (if_pos hstart)

/-- R200: the urgency byte of a request frame is 00h or 01h. -/
theorem judgeFrame_of_urgency (h : readFlag urgency = none) : judgeFrame ([0xA5#8, tag, urgency, code, n] ++ more) = .bad := by
  simp [judgeFrame, h]

/-- R198, R200: what is judged in a frame with an urgency byte of its form: the length, then the check. -/
theorem judgeFrame_of_flag {urgent : Bool} (h : readFlag urgency = some urgent) :
    judgeFrame ([0xA5#8, tag, urgency, code, n] ++ more) =
      if 200 < n.toNat ∨ more.length < n.toNat + 2 then .bad
      else if (more.drop n.toNat).take 2 = be 2 (crc ([0xA5#8, tag, urgency, code, n] ++ more.take n.toNat)).toNat then
        .request urgent { tag := tag, code := code, args := more.take n.toNat }
      else .bad := by
  simp [judgeFrame, h]

/-- R200: an argument length above 200, or above that of the bytes received. -/
theorem judgeFrame_of_length (h : 200 < n.toNat ∨ more.length < n.toNat + 2) :
    judgeFrame ([0xA5#8, tag, urgency, code, n] ++ more) = .bad := by
  cases hflag : readFlag urgency with
  | none => exact judgeFrame_of_urgency hflag
  | some urgent => rw [judgeFrame_of_flag hflag, if_pos h]

/-- R198, R200: a wrong check. -/
theorem judgeFrame_of_check
    (h : (more.drop n.toNat).take 2 ≠ be 2 (crc ([0xA5#8, tag, urgency, code, n] ++ more.take n.toNat)).toNat) :
    judgeFrame ([0xA5#8, tag, urgency, code, n] ++ more) = .bad := by
  cases hflag : readFlag urgency with
  | none => exact judgeFrame_of_urgency hflag
  | some urgent => rw [judgeFrame_of_flag hflag, if_neg h, ite_self]

/-- R200: fewer bytes than a request frame without arguments has. -/
theorem judgeFrame_of_short {rest : List Byte} (h : rest.length < 6) : judgeFrame (0xA5#8 :: rest) = .bad := by
  match rest with
  | [] | [_] | [_, _] | [_, _, _] => rfl
  | tag :: urgency :: code :: n :: more =>
    exact judgeFrame_of_length (.inr (by simp only [List.length_cons] at h; omega))

/-- R172: bytes that begin as a request frame are no fill. -/
theorem judgeFrame_start_ne_fill (rest : List Byte) : judgeFrame (0xA5#8 :: rest) ≠ .fill := by
  match rest with
  | [] | [_] | [_, _] | [_, _, _] => nofun
  | tag :: urgency :: code :: n :: more =>
    show judgeFrame ([0xA5#8, tag, urgency, code, n] ++ more) ≠ .fill
    cases hflag : readFlag urgency with
    | none => rw [judgeFrame_of_urgency hflag]; nofun
    | some urgent =>
      rw [judgeFrame_of_flag hflag]
      split
      · nofun
      · split <;> nofun

/-- R172: fill is no bytes, or a first byte of 00h or FFh. -/
theorem judgeFrame_eq_fill_iff : judgeFrame bs = .fill ↔ bs = [] ∨ ∃ rest, bs = 0x00#8 :: rest ∨ bs = 0xFF#8 :: rest := by
  refine ⟨fun h => ?_, by rintro (rfl | ⟨rest, rfl | rfl⟩) <;> rfl⟩
  match bs with
  | [] => exact .inl rfl
  | b :: rest =>
    by_cases hlow : b = 0x00#8
    · exact .inr ⟨rest, .inl (hlow ▸ rfl)⟩
    by_cases hhigh : b = 0xFF#8
    · exact .inr ⟨rest, .inr (hhigh ▸ rfl)⟩
    by_cases hstart : b = 0xA5#8
    · exact absurd (hstart ▸ h) (judgeFrame_start_ne_fill rest)
    · cases h.symm.trans (judgeFrame_of_first rest hlow hhigh hstart)

/-- The bytes of a request frame (11.2), with what follows its check. -/
theorem RequestFrame.bytes_append (f : RequestFrame) (urgent : Bool) (extra : List Byte) :
    f.bytes urgent ++ extra = [0xA5#8, f.tag, if urgent then 1#8 else 0#8, f.code, BitVec.ofNat 8 f.args.length] ++
      (f.args ++ be 2 (crc ([0xA5#8, f.tag, if urgent then 1#8 else 0#8, f.code, BitVec.ofNat 8 f.args.length] ++ f.args)).toNat
        ++ extra) := by
  simp [RequestFrame.bytes, withCheck, flag1, num1, be_one]

/-- R172, R200: a frame of at most 200 argument bytes is taken, whatever bytes follow its check. -/
theorem judgeFrame_bytes_append {f : RequestFrame} (h : f.args.length ≤ 200) (urgent : Bool) (extra : List Byte) :
    judgeFrame (f.bytes urgent ++ extra) = .request urgent f := by
  have hn : (BitVec.ofNat 8 f.args.length).toNat = f.args.length := by rw [BitVec.toNat_ofNat]; omega
  rw [RequestFrame.bytes_append, judgeFrame_of_flag (readFlag_flag urgent), hn, if_neg, if_pos]
  · simp
  · simp
  · simp only [List.length_append, length_be]
    omega

/-- R172, R200: bytes that are neither fill nor bad begin with the header of a request frame. -/
theorem header_of_judgeFrame (hfill : judgeFrame bs ≠ .fill) (hbad : judgeFrame bs ≠ .bad) :
    ∃ tag urgency code n more, bs = [0xA5#8, tag, urgency, code, n] ++ more := by
  match bs with
  | [] => exact absurd rfl hfill
  | b :: rest =>
    by_cases hstart : b = 0xA5#8
    · subst hstart
      match rest with
      | [] | [_] | [_, _] | [_, _, _] => exact absurd rfl hbad
      | tag :: urgency :: code :: n :: more => exact ⟨tag, urgency, code, n, more, rfl⟩
    · refine absurd (judgeFrame_of_first rest ?_ ?_ hstart) hbad <;> rintro rfl <;> exact hfill rfl

/-- R198, R200: what is taken as a request frame is that frame's bytes, and bytes after its check. -/
theorem bytes_of_judgeFrame {urgent : Bool} {f : RequestFrame} (h : judgeFrame bs = .request urgent f) :
    f.args.length ≤ 200 ∧ ∃ extra, bs = f.bytes urgent ++ extra := by
  obtain ⟨tag, urgency, code, n, more, rfl⟩ :=
    header_of_judgeFrame (bs := bs) (by rw [h]; nofun) (by rw [h]; nofun)
  cases hflag : readFlag urgency with
  | none => cases (judgeFrame_of_urgency hflag).symm.trans h
  | some u =>
    rw [judgeFrame_of_flag hflag] at h
    split at h
    next => cases h
    next hlength =>
      split at h
      next hcheck =>
        cases h
        obtain rfl := List.head_eq_of_cons_eq (readFlag_eq_some_iff.1 hflag)
        have hargs : (more.take n.toNat).length = n.toNat := List.length_take_of_le (by omega)
        refine ⟨by rw [hargs]; omega, more.drop (n.toNat + 2), ?_⟩
        rw [RequestFrame.bytes_append, hargs, BitVec.ofNat_toNat, BitVec.setWidth_eq, ← hcheck, ← List.drop_drop,
          List.append_assoc, List.take_append_drop, List.take_append_drop]
      next => cases h

end

/-! ## The statement -/

/-- Settles O15: each reader of the frames and the lane messages is the inverse of its writer. -/
theorem framesAndAnswersReadBack : Obligations.FramesAndAnswersReadBack := by
  unfold Obligations.FramesAndAnswersReadBack
  refine ⟨?request, fun bs => judgeFrame_eq_fill_iff, fun b rest => judgeFrame_of_first rest, fun rest => judgeFrame_of_short, ?bad,
    fun st seqNo bs rep => judgeAnswer_eq_some_iff, ?refused⟩
  case request =>
    intro bs urgent f
    refine ⟨bytes_of_judgeFrame, ?_⟩
    rintro ⟨hlength, extra, rfl⟩
    exact judgeFrame_bytes_append hlength urgent extra
  case bad =>
    intro tag urgency code n more
    exact ⟨fun hclear hset => judgeFrame_of_urgency (readFlag_of_ne hclear hset), fun h => judgeFrame_of_length (.inl h),
      fun h => judgeFrame_of_length (.inr h), judgeFrame_of_check⟩
  case refused =>
    intro st seqNo body c1 c0
    refine ⟨fun h => judgeAnswer_of_no_check (stripCheck_append_of_ne h), ?_⟩
    rintro addr q kind len contents rfl hbad
    exact judgeAnswer_append_of_bad hbad

end Sys2Proof.Machine
end

section
/-! SUPPORT. The requests to LKP that answer fixed bytes or empty the link: UNKNOWN_REQUEST, READ_IDENT and LINK_RESET (R174, R181, R182),
and a request that the mode does not allow (R175). -/

namespace Sys2Proof.Machine

/-! ## A code no rule defines (R174) -/

/-- The row of a request code; a code that no rule defines has none, and stands with UNKNOWN_REQUEST. The orders of notices that START_SITE
and STOP_SITE carry are no part of the code. -/
def rowOfCode (code : Byte) : Instr :=
  match code.toNat with
  | 0x01 => .readIdent | 0x02 => .readAttention | 0x03 => .attentionMask | 0x04 => .siteSet
  | 0x05 => .startSite [] | 0x06 => .stopSite [] | 0x07 => .readMode | 0x08 => .linkReset
  | 0x10 => .roomSet | 0x11 => .slotMapSet | 0x12 => .roomRead | 0x13 => .roomCount
  | 0x14 => .slotRead | 0x15 => .slotBlock | 0x16 => .laneRead
  | 0x20 => .classSet | 0x21 => .admission | 0x22 => .findTag | 0x23 => .palletRead
  | 0x24 => .census | 0x25 => .holdSet | 0x26 => .holdClear | 0x27 => .retire | 0x28 => .placeCorrect
  | 0x30 => .move | 0x31 => .moveBatch | 0x32 => .moveCancel | 0x33 => .moveRedirect
  | 0x34 => .moveRead | 0x35 => .moveCollect | 0x36 => .dispatchHold | 0x37 => .terminalSet | 0x38 => .terminalRead
  | 0x40 => .doorSet | 0x41 => .doorSeal | 0x42 => .doorOpen | 0x43 => .doorClose
  | 0x44 => .doorRelease | 0x45 => .doorRead | 0x46 => .doorClearFault
  | 0x50 => .probeSet | 0x51 => .thermalSet | 0x52 => .roomTempRead | 0x53 => .probeRead
  | 0x60 => .evapSet | 0x61 => .defrostRequest | 0x62 => .defrostAbort | 0x63 => .evapRelease | 0x64 => .evapRead
  | 0x70 => .alarmList | 0x71 => .alarmAck | 0x72 => .alarmRead | 0x73 => .alarmOverflowClear
  | _ => .unknownRequest

/-- Every code of the availability table (R175) is the code of a request's row (11.3). -/
theorem requestCode_rowOfCode : ∀ code : Byte, groupOf code ≠ none → requestCode (rowOfCode code) = some code := by
  decide +kernel

/-- Every request's row has a line in the availability table (R175). -/
theorem groupOf_ne_none_of_requestCode {c : Instr} {code : Byte} (hc : requestCode c = some code) : groupOf code ≠ none := by
  cases c <;> cases hc <;> nofun

theorem groupOf_eq_none_iff (code : Byte) : groupOf code = none ↔ ∀ c, requestCode c ≠ some code := by
  refine ⟨fun h c hc => groupOf_ne_none_of_requestCode hc h, fun h => ?_⟩
  by_contra hgroup
  exact h (rowOfCode code) (requestCode_rowOfCode code hgroup)

theorem handOffUnknown_of_undefined {f : RequestFrame} {s t : State} (h : AtHead f s t) (hf : groupOf f.code = none) :
    handOffUnknown s = pushAnswer f .unknownRequest [] t := by
  simp only [handOffUnknown, h.head, h.ready, hf, and_self, if_true]

/-- Settles O17: the head of the queues, the codes no rule defines, and the answer to one. -/
theorem unknownRequestAnswered : Obligations.UnknownRequestAnswered :=
  ⟨fun _ _ _ hurgent => takeHead_urgent hurgent, fun _ _ _ hurgent hnormal => takeHead_normal hurgent hnormal, groupOf_eq_none_iff,
    fun _ _ _ h hf => congrArg Host.Outcome.next (handOffUnknown_of_undefined h hf)⟩

/-! ## A request the mode does not allow (R175) -/

/-- R175: whatever the group, a refusal is SUPPLY in HOLDOVER and RETAIN, and MODE in the other modes. -/
theorem Group.refusal_eq {g : Group} {m : Mode} {rc : ResultCode} (h : g.refusal m = some rc) :
    rc = if m = .holdover ∨ m = .retain then .supply else .mode := by
  cases m <;> cases g <;> cases h <;> rfl

/-- Settles O18: the refusal is the table's, and the hand-off answers it alone. -/
theorem unavailableRequestAnswered : Obligations.UnavailableRequestAnswered := by
  intro c code f s t g rc hcode hhead hf hgroup hrefusal
  have hexec : exec c s = refusedWith f rc t := by
    rw [exec_eq_handOff hcode, handOff_unavailable hhead hf hgroup hrefusal]
    rfl
  rw [Group.refusal_eq hrefusal] at hexec ⊢
  split
  next hm => exact ⟨.inr rfl, iff_of_true rfl hm, by rwa [if_pos hm] at hexec⟩
  next hm => exact ⟨.inl rfl, iff_of_false nofun hm, by rwa [if_neg hm] at hexec⟩

/-! ## READ_IDENT (R181) -/

/-- Settles O19: the owner answers the bytes of R181 to an empty argument list, and BAD_ARG to any other. -/
theorem readIdentAnswers : Obligations.ReadIdentAnswers := by
  refine ⟨availableIn_of_group (g := .always) rfl, fun f s t hf => ⟨fun hargs => ?_, fun hargs => ?_⟩⟩
  · refine exec_answered rfl hf ?_
    rw [hargs]
    rfl
  · exact exec_refused rfl hf (ownerReply_takesLength (c := .readIdent) rfl f.args t (mt List.length_eq_zero_iff.1 hargs))

/-! ## LINK_RESET (R182) -/

/-- R182: LINK_RESET answers the numbers of requests and answers that it removes. -/
theorem exec_linkReset {f : RequestFrame} {s t : State} (hf : HandsOff 0x08 f s t) (hargs : f.args = []) :
    exec .linkReset s = answered f .ok (be 2 (t.lkp.urgent.length + t.lkp.normal.length) ++ be 2 t.lkp.answers.length)
      (t.withLkp t.lkp.reset) := by
  refine exec_answered rfl hf ?_
  rw [hargs]
  rfl

/-- Settles O22: the row's outcome, with LKP's record after the reset written out. -/
theorem linkResetClearsLink : Obligations.LinkResetClearsLink :=
  ⟨availableIn_of_group (g := .always) rfl, fun _ _ _ hf hargs => exec_linkReset hf hargs⟩

end Sys2Proof.Machine
end

section
/-! SUPPORT. READ_ATTENTION and the causes (R176, R177, R179): what the reply is for each argument, which cause stands first, and what the
clearing of a cause leaves. -/

namespace Sys2Proof.Machine

/-! ## The flags of the causes (R176) -/

theorem Cause.mem_all (c : Cause) : c ∈ Cause.all := by cases c <;> decide

/-- A write of one cause's flag is read back there, and leaves the other six. -/
theorem CauseFlags.get_set (f : CauseFlags) (c k : Cause) (b : Bool) : (f.set c b).get k = if k = c then b else f.get k := by
  cases c <;> cases k <;> rfl

/-- R176, R177: every cause but MOVE is cleared by its flag. -/
theorem pendingCauses_clearCause {c : Cause} (hc : c ≠ .move) (s : State) :
    (clearCause c s).lkp.pendingCauses = s.lkp.pendingCauses.set c false := by
  cases c with
  | move => exact absurd rfl hc
  | supply | alarm | door | defrost | room | link => rfl

theorem cause_pending_unmasked_iff (s : State) (c : Cause) : (s.lkp.pendingCauses.get c && !s.lkp.masks.get c) = true ↔
    s.lkp.pendingCauses.get c = true ∧ s.lkp.masks.get c = false := by
  rw [Bool.and_eq_true, Bool.not_eq_true']

/-- R178: ATTN is active exactly if some cause is pending and unmasked. -/
theorem attn_iff (s : State) : s.attn = true ↔ ∃ c, s.lkp.pendingCauses.get c = true ∧ s.lkp.masks.get c = false := by
  simp only [State.attn, List.any_eq_true, Cause.mem_all, true_and, cause_pending_unmasked_iff]

/-- R179: no cause stands first exactly where none is pending and unmasked. -/
theorem topCause_eq_none_iff (s : State) :
    s.topCause = none ↔ ∀ c, ¬(s.lkp.pendingCauses.get c = true ∧ s.lkp.masks.get c = false) := by
  simp only [State.topCause, List.find?_eq_none, Cause.mem_all, forall_const, cause_pending_unmasked_iff]

/-- R176, R179: the cause that stands first is pending and unmasked, and none before it in priority order is. -/
theorem topCause_eq_some_iff (s : State) (c : Cause) : s.topCause = some c ↔
    (s.lkp.pendingCauses.get c = true ∧ s.lkp.masks.get c = false) ∧ ∃ above below : List Cause,
      Cause.all = above ++ c :: below ∧ ∀ k ∈ above, ¬(s.lkp.pendingCauses.get k = true ∧ s.lkp.masks.get k = false) := by
  simp only [State.topCause, List.find?_eq_some_iff_append, Bool.not_eq_true', ← Bool.not_eq_true, cause_pending_unmasked_iff]

/-! ## The reply by its argument (R179, R199) -/

theorem Cause.byte_ne_zero (c : Cause) : c.byte ≠ 0#8 := by cases c <;> decide

/-- R199: 07h is the last code of a cause. -/
theorem readCause_of_gt {b : Byte} (h : 7 < b.toNat) : readCause b = none := by
  unfold readCause
  split
  case h_8 => rfl
  all_goals omega

section
variable {s : State}

theorem readAttentionReply_of_cause (c : Cause) : readAttentionReply [c.byte] s = returnCause c s := by
  simp only [readAttentionReply, Cause.byte_ne_zero, if_false, readCause_byte]

theorem readAttentionReply_of_top {c : Cause} (h : s.topCause = some c) : readAttentionReply [0#8] s = returnCause c s := by
  simp only [readAttentionReply, if_true, returnTop, h]

theorem readAttentionReply_of_no_top (h : s.topCause = none) :
    readAttentionReply [0#8] s = done ([0#8] ++ s.flagBytes) s := by
  simp only [readAttentionReply, if_true, returnTop, h]

theorem readAttentionReply_of_gt {b : Byte} (h : 7 < b.toNat) : readAttentionReply [b] s = .error .badArg := by
  have hne : b ≠ 0#8 := by rintro rfl; exact absurd h (by decide)
  simp only [readAttentionReply, hne, if_false, readCause_of_gt h]

/-- R177: where the MOVE cause is true, its contents are the number of finished orders. -/
theorem causeContents_move (h : MoveCauseTrue s) : s.causeContents .move = be 2 s.mds.finished.length := by
  unfold MoveCauseTrue at h
  cases hfinished : s.mds.finished with
  | nil => simp [State.causeContents, num2, hfinished]
  | cons o rest => simp [State.causeContents, num2, CauseFlags.get, h, hfinished]

end

/-- R179: a named cause is returned with its contents and the flags, and cleared. -/
theorem exec_readAttention_of_cause {f : RequestFrame} {s t : State} (hf : HandsOff 0x02 f s t) {c : Cause}
    (hargs : f.args = [c.byte]) :
    exec .readAttention s = answered f .ok ([c.byte] ++ t.causeContents c ++ t.flagBytes) (clearCause c t) := by
  refine exec_answered rfl hf ?_
  rw [hargs]
  exact readAttentionReply_of_cause c

/-! ## The statement of READ_ATTENTION -/

/-- Settles O21: the reply by its argument, the cause that stands first, the contents, and what a clearing leaves. -/
theorem readAttentionReturnsAndClears : Obligations.ReadAttentionReturnsAndClears := by
  refine ⟨availableIn_of_group (g := .always) rfl, ?reply, fun t => ⟨topCause_eq_some_iff t, topCause_eq_none_iff t⟩,
    fun t => ⟨rfl, rfl, rfl, rfl, rfl, rfl, rfl⟩, ?clears⟩
  case reply =>
    intro f s t hf
    refine ⟨?_, fun hargs htop => exec_answered rfl hf (hargs ▸ readAttentionReply_of_no_top htop),
      fun b hargs hb => exec_refused rfl hf (hargs ▸ readAttentionReply_of_gt hb)⟩
    rintro c (hargs | ⟨hargs, htop⟩)
    · exact exec_readAttention_of_cause hf hargs
    · exact exec_answered rfl hf (hargs ▸ readAttentionReply_of_top htop)
  case clears =>
    refine fun t => ⟨fun c hc => ?_, rfl, rfl, rfl, rfl, rfl, rfl⟩
    rw [pendingCauses_clearCause hc]
    exact ⟨by rw [CauseFlags.get_set, if_pos rfl], fun k hk => by rw [CauseFlags.get_set, if_neg hk]⟩

end Sys2Proof.Machine
end

section
/-! SUPPORT. The MOVE cause (R177): every step ends by making it follow the finished list, or leaves both alone. -/

namespace Sys2Proof.Machine

/-! ## The link's own steps -/

/-- What the MOVE cause is judged by, and its flag. -/
def State.moveRecords (s : State) : List OrderId × Bool := (s.mds.finished, s.lkp.pendingCauses.move)

theorem moveRecords_takeHead {s t : State} {f : RequestFrame} (h : s.takeHead = some (f, t)) : t.moveRecords = s.moveRecords := by
  rw [takeHead_eq h]
  rfl

theorem moveRecords_pushAnswer (f : RequestFrame) (rc : ResultCode) (results : List Byte) (s : State) :
    (pushAnswer f rc results s).moveRecords = s.moveRecords := rfl

theorem moveRecords_endExchange (received : List Byte) (s : State) : (endExchange received s).moveRecords = s.moveRecords := by
  unfold endExchange judgeReceived queueFrame
  dsimp only
  repeat' split
  all_goals rfl

theorem moveRecords_handOffUnknown (s : State) : (handOffUnknown s).moveRecords = s.moveRecords := by
  unfold handOffUnknown
  split
  next hhead =>
    split
    next => exact (moveRecords_pushAnswer ..).trans (moveRecords_takeHead hhead)
    next => rfl
  next => rfl

/-! ## Every step -/

/-- The end of a step: the MOVE cause was made to follow the finished list, or neither was changed. -/
def MoveFollows (s t : State) : Prop := (∃ u, t = settle u) ∨ t.moveRecords = s.moveRecords

section
variable {s t : State}

theorem moveFollows_settle (s u : State) : MoveFollows s (settle u) := .inl ⟨u, rfl⟩

theorem moveFollows_refl (s : State) : MoveFollows s s := .inr rfl

theorem moveFollows_ite {c : Prop} [Decidable c] {u : State} (ht : MoveFollows s t) (hu : MoveFollows s u) :
    MoveFollows s (if c then t else u) := by
  split
  · exact ht
  · exact hu

theorem MoveFollows.moveCauseTrue (h : MoveFollows s t) (hs : MoveCauseTrue s) : MoveCauseTrue t := by
  obtain ⟨u, rfl⟩ | hrecords := h
  · exact settle_moveCause u
  · obtain ⟨hfinished, hmove⟩ := Prod.mk.inj hrecords
    unfold MoveCauseTrue at *
    rw [hfinished, hmove, hs]

end

theorem moveFollows_handOff (code : Byte) (k : List Byte → State → Reply) (s : State) : MoveFollows s (handOff code k s) := by
  rcases handOff_cases code k s with hidle | ⟨f, t, hhead, ⟨rc, hrefused⟩ | ⟨rc, results, u, -, hdone⟩⟩
  · rw [hidle]
    exact moveFollows_refl s
  · rw [hrefused]
    exact .inr ((moveRecords_pushAnswer ..).trans (moveRecords_takeHead hhead))
  · rw [hdone]
    exact moveFollows_settle ..

theorem moveFollows_reportRow (l : Lane) (ofRow : Report → Bool) (received : List Byte) (s : State) :
    MoveFollows s (reportRow l ofRow received s) := by
  unfold reportRow
  repeat' split
  next => exact moveFollows_settle ..
  all_goals exact moveFollows_refl s

theorem moveFollows_missedRow (l : Lane) (received : List Byte) (s : State) : MoveFollows s (missedRow l received s) := by
  unfold missedRow
  split
  next => exact moveFollows_settle ..
  next => exact moveFollows_refl s

/-- The owners' changes, the lanes, the resets, the supply lines and the deadlines end in `settle`; the link's own steps change neither
the finished list nor the cause. -/
theorem moveFollows_exec {c : Instr} {s t : State} (h : exec c s = .next t) : MoveFollows s t := by
  cases hcode : requestCode c with
  | some code =>
    rw [exec_eq_handOff hcode] at h
    cases h
    exact moveFollows_handOff code (ownerReply c) s
  | none =>
    cases c <;> simp only [requestCode, reduceCtorEq] at hcode
    all_goals
      injection h with h
      subst h
    case exchangeBegin => exact moveFollows_ite (moveFollows_refl s) (.inr rfl)
    case exchangeEnd received => exact .inr (moveRecords_endExchange received s)
    case unknownRequest => exact .inr (moveRecords_handOffUnknown s)
    case missedPoll => exact moveFollows_missedRow ..
    case doorStatus | probeSetReport | controllerStatus | picked | dropped | abandon | submit | readyReport =>
      exact moveFollows_reportRow ..
    case coldStart | warmRestart => exact moveFollows_settle ..
    case supplyFailActive | batteryLowActive => exact moveFollows_ite (moveFollows_refl s) (moveFollows_settle ..)
    all_goals exact moveFollows_ite (moveFollows_settle ..) (moveFollows_refl s)

theorem moveCauseTrue_step {s t : State} (hs : MoveCauseTrue s) (h : step s = .next t) : MoveCauseTrue t := by
  unfold step at h
  split at h
  · cases h
    exact hs
  next c rest _ => exact (moveFollows_exec h).moveCauseTrue (s := s.withPending rest) hs

theorem moveCauseTrue_of_settled {u t : State} (h : (.next (settle u) : Host.Outcome State Fault Refusal) = .next t) :
    MoveCauseTrue t := by
  cases h
  exact settle_moveCause u

/-! ## The statement -/

/-- Settles O8: a step keeps the MOVE cause true, a reset and LINK_RESET make it true, and READ_ATTENTION of MOVE answers the number of
finished orders. -/
theorem stepsKeepMoveCauseTrue : Obligations.StepsKeepMoveCauseTrue := by
  refine ⟨fun s t hs h => moveCauseTrue_step hs h, ?resets, ?read⟩
  case resets =>
    rintro strap sf bl order s t (hcold | hwarm | ⟨f, u, hf, hargs, hreset⟩)
    · exact moveCauseTrue_of_settled hcold
    · exact moveCauseTrue_of_settled hwarm
    · exact moveCauseTrue_of_settled ((exec_linkReset hf hargs).symm.trans hreset)
  case read =>
    intro f s t hf hargs hs
    have hhead := takeHead_eq hf.next.head
    have hcontents : t.causeContents .move = be 2 s.mds.finished.length := by
      rw [← causeContents_move hs, hhead]
      rfl
    have hflags : t.flagBytes = s.flagBytes := by
      rw [hhead]
      rfl
    rw [exec_readAttention_of_cause hf (c := .move) hargs, hcontents, hflags]
    rfl

end Sys2Proof.Machine
end
section
/-! SUPPORT. ATTENTION_MASK (R180): the reply, and that no reset leaves a cause masked (R183). -/

namespace Sys2Proof.Machine

/-! ## What leaves the masks alone (R184) -/

/-- The masks belong to the fixed part of the state. -/
theorem masks_eq_fixed (s : State) : s.lkp.masks = s.fixed.masks := rfl

theorem masks_beforeNotices (entered : Mode) (s : State) : (beforeNotices entered s).lkp.masks = s.lkp.masks := by
  unfold beforeNotices clearSupplyLoss
  split <;> rfl

@[simp] theorem masks_enterMode (entered : Mode) (order : List Block) (s : State) :
    (enterMode entered order s).lkp.masks = s.lkp.masks := by
  rw [enterMode_eq, masks_eq_fixed, fixed_forEach _ (fixed_blockNotice _ _)]
  exact masks_beforeNotices entered s

@[simp] theorem masks_setSelfCheck (r : SelfCheck) (s : State) : (setSelfCheck r s).lkp.masks = s.lkp.masks := by
  unfold setSelfCheck
  split <;> rfl

@[simp] theorem masks_selfCheckSupply (s : State) : (selfCheckSupply s).lkp.masks = s.lkp.masks := by
  unfold selfCheckSupply
  split
  · exact masks_setSelfCheck ..
  · rfl

@[simp] theorem masks_raiseSupplyLoss (s : State) : (raiseSupplyLoss s).lkp.masks = s.lkp.masks := (rfl)

@[simp] theorem masks_recordLine (f : Moc → Moc) (s : State) : (recordLine f s).lkp.masks = s.lkp.masks := (rfl)

@[simp] theorem masks_withMoc (m : Moc) (s : State) : (s.withMoc m).lkp.masks = s.lkp.masks := (rfl)

@[simp] theorem masks_enterRetain (order : List Block) (s : State) : (enterRetain order s).lkp.masks = s.lkp.masks := by
  unfold enterRetain
  split <;> simp

@[simp] theorem masks_takeSupplyFail (order : List Block) (s : State) : (takeSupplyFail order s).lkp.masks = s.lkp.masks := by
  unfold takeSupplyFail
  dsimp only
  repeat' split
  all_goals simp

@[simp] theorem masks_takeBatteryLow (order : List Block) (s : State) : (takeBatteryLow order s).lkp.masks = s.lkp.masks := by
  unfold takeBatteryLow
  dsimp only
  split <;> simp

theorem masks_sampleLines (supplyFail batteryLow : Bool) (order : List Block) (s : State) :
    (sampleLines supplyFail batteryLow order s).lkp.masks = s.lkp.masks := by
  unfold sampleLines
  cases supplyFail <;> cases batteryLow <;> simp

theorem masks_restartChanges (supplyFail batteryLow : Bool) (before s : State) :
    (restartChanges supplyFail batteryLow before s).lkp.masks = s.lkp.masks := by
  unfold restartChanges
  split <;> rfl

/-! ## The resets (R183, R186, R187) -/

theorem masks_settle (s : State) : (settle s).lkp.masks = s.lkp.masks := rfl

theorem masks_coldStart (strap : Strap) (supplyFail batteryLow : Bool) (order : List Block) (s : State) :
    (coldStart strap supplyFail batteryLow order s).lkp.masks = {} :=
  masks_sampleLines ..

theorem masks_warmRestart (supplyFail batteryLow : Bool) (order : List Block) (s : State) :
    (warmRestart supplyFail batteryLow order s).lkp.masks = {} := by
  have hblocks : (warmRestartBlocks s).fixed = (mocWarmRestart (lplWarmRestart (lkpWarmRestart s))).fixed := by
    simp only [warmRestartBlocks, fixed_tsuWarmRestart, fixed_dfcWarmRestart, fixed_dkcWarmRestart, fixed_mdsWarmRestart]
  have hmasks : (warmRestartBlocks s).lkp.masks = {} := by
    rw [masks_eq_fixed, hblocks]
    rfl
  exact (masks_sampleLines ..).trans ((masks_restartChanges ..).trans hmasks)

/-! ## The reply (R180) -/

theorem attentionMaskReply_of_flags {b : Byte} (h : b.getLsbD 7 = false) (s : State) :
    attentionMaskReply [b] s = done [s.lkp.masks.byte] (s.withLkp { s.lkp with masks := readCauseFlags b }) := by
  simp only [attentionMaskReply, h, Bool.false_eq_true, if_false]

/-- R200: a list that is not one byte, or a byte with its unused bit set, is BAD_ARG. -/
theorem attentionMaskReply_of_bad {args : List Byte} (h : ∀ b, args = [b] → b.getLsbD 7 = true) (s : State) :
    attentionMaskReply args s = .error .badArg := by
  unfold attentionMaskReply
  split
  next b => exact if_pos (h b rfl)
  next => rfl

/-- Settles O20: the reply to a flag byte, ATTN after it, the refusal of any other list, and the masks after a reset. -/
theorem attentionMaskReplacesMasks : Obligations.AttentionMaskReplacesMasks := by
  refine ⟨availableIn_of_group (g := .always) rfl, ?flags, fun f s t hf hbad => ?bad, ?resets⟩
  case flags =>
    rintro f s t u b hf hargs hb rfl
    refine ⟨exec_answered rfl hf ?_, attn_iff _⟩
    rw [hargs]
    exact attentionMaskReply_of_flags hb t
  case bad => exact exec_refused rfl hf (attentionMaskReply_of_bad hbad t)
  case resets =>
    rintro strap sf bl order s t (hcold | hwarm)
    · cases hcold
      exact (masks_settle _).trans (masks_coldStart ..)
    · cases hwarm
      exact (masks_settle _).trans (masks_warmRestart ..)

end Sys2Proof.Machine
end

section
/-! SUPPORT. Exchanges (R171, R172): the frame that an exchange shifts out, what its end delivers, and how the received bytes are
judged. -/

namespace Sys2Proof.Machine

/-! ## The beginning and the delivery (R171) -/

/-- R171: an exchange shifts out the answer at the head, or an idle frame where no answer waits. -/
theorem outFrame_eq (l : Lkp) : l.outFrame =
    match l.answers with
    | a :: _ => a.bytes
    | [] => idleBytes (l.pendingCauses.shown l.masks).byte l.urgent.length l.normal.length := by
  unfold Lkp.outFrame
  cases l.answers <;> rfl

section
variable {s : State}

theorem exec_exchangeBegin_of_idle (h : s.lkp.exchange = none) : exec .exchangeBegin s = .next (beginExchange s) :=
  congrArg Host.Outcome.next (if_neg (by simp [h]))

theorem exec_exchangeBegin_of_running {x : Exchange} (h : s.lkp.exchange = some x) : exec .exchangeBegin s = .next s :=
  congrArg Host.Outcome.next (if_pos (by simp [h]))

theorem endExchange_of_idle (h : s.lkp.exchange = none) (bs : List Byte) : endExchange bs s = s := by
  simp only [endExchange, h]

theorem endExchange_of_running {x : Exchange} (h : s.lkp.exchange = some x) (bs : List Byte) :
    endExchange bs s = judgeReceived x.ready bs (deliver x bs.length s) := by
  simp only [endExchange, h]

end

/-- R171, 11.2: one byte is shifted out for each received, the frame's and then 00h. -/
theorem shiftedOut_eq (x : Exchange) (bytes : Nat) :
    x.shiftedOut bytes = (List.range bytes).map fun k => x.out.getD k 0x00#8 := by
  apply List.ext_getElem?
  intro k
  by_cases hk : k < bytes
  · rw [List.getElem?_map, List.getElem?_range hk, Option.map_some]
    by_cases hout : k < x.out.length
    · rw [shiftedOut_frame x hk hout, List.getD_eq_getElem _ _ hout, List.getElem?_eq_getElem hout]
    · rw [shiftedOut_fill x hk (Nat.le_of_not_lt hout), List.getD_eq_default _ _ (Nat.le_of_not_lt hout)]
  · rw [List.getElem?_eq_none (by simpa using hk), List.getElem?_eq_none (by simpa using hk)]

/-- R171: the end of an exchange, with the bytes it shifted out; an answer shifted out whole leaves the queue. -/
theorem deliver_eq (x : Exchange) (bytes : Nat) (s : State) : deliver x bytes s = s.withLkp { s.lkp with
    exchange := none
    shifted := (List.range bytes).map fun k => x.out.getD k 0x00#8
    answers := if x.answer = true ∧ x.out.length ≤ bytes then s.lkp.answers.tail else s.lkp.answers } := by
  simp only [deliver, shiftedOut_eq, Bool.and_eq_true, decide_eq_true_eq]

/-! ## The received bytes (R172) -/

section
variable {bs : List Byte} {f : RequestFrame} (u : State)

theorem judgeReceived_of_fill (h : judgeFrame bs = .fill) (ready : Bool) : judgeReceived ready bs u = u := by
  simp only [judgeReceived, h]

theorem judgeReceived_of_not_ready (h : judgeFrame bs ≠ .fill) : judgeReceived false bs u = discardFrame true u := by
  unfold judgeReceived
  split
  next hfill => exact absurd hfill h
  all_goals rfl

theorem judgeReceived_of_bad (h : judgeFrame bs = .bad) : judgeReceived true bs u = discardFrame false u := by
  simp only [judgeReceived, h, if_true]

theorem judgeReceived_of_request {urgent : Bool} (h : judgeFrame bs = .request urgent f) :
    judgeReceived true bs u = queueFrame urgent f u := by
  simp only [judgeReceived, h, if_true]

variable {u}

theorem queueFrame_urgent (h : u.lkp.urgent.length < 8) (f : RequestFrame) :
    queueFrame true f u = u.withLkp { u.lkp with urgent := u.lkp.urgent ++ [f] } :=
  if_pos h

theorem queueFrame_normal (h : u.lkp.normal.length < 24) (f : RequestFrame) :
    queueFrame false f u = u.withLkp { u.lkp with normal := u.lkp.normal ++ [f] } :=
  if_pos h

/-- R172: a good frame for a full queue is answered while the answer queue has a place, and discarded otherwise. -/
theorem queueFrame_full {urgent : Bool} (h : if urgent then 8 ≤ u.lkp.urgent.length else 24 ≤ u.lkp.normal.length)
    (f : RequestFrame) :
    queueFrame urgent f u = if u.lkp.answers.length < 16 then pushAnswer f .queueFull [] u else discardFrame true u := by
  have hfull : queueFrame urgent f u = if u.ready then pushAnswer f .queueFull [] u else discardFrame true u := by
    cases urgent <;> exact if_neg (Nat.not_lt.2 h)
  exact hfull.trans (if_congr decide_eq_true_iff rfl rfl)

end

/-! ## The statement -/

/-- Settles O16: the beginning, the delivery, and the judgement of the received bytes case by case. -/
theorem exchangesDeliverAndJudge : Obligations.ExchangesDeliverAndJudge := by
  refine ⟨fun s hidle => ?begins, fun s x hx => exec_exchangeBegin_of_running hx,
    fun s bs hidle => congrArg Host.Outcome.next (endExchange_of_idle hidle bs), ?ends⟩
  case begins =>
    rw [exec_exchangeBegin_of_idle hidle, beginExchange, outFrame_eq]
    rfl
  case ends =>
    rintro s u x bs hx hu
    rw [← deliver_eq] at hu
    have hend : exec (.exchangeEnd bs) s = .next (judgeReceived x.ready bs u) := by
      rw [hu, ← endExchange_of_running hx]
      rfl
    rw [hend]
    refine ⟨fun hfill => ?_, fun hframe hready => ?_, fun hbad hready => ?_, fun f hready => ⟨fun hf hroom => ?_, fun hf hroom => ?_,
      fun hfull => ?_⟩⟩
    · rw [judgeReceived_of_fill u hfill]
    · rw [hready, judgeReceived_of_not_ready u hframe]
      rfl
    · rw [hready, judgeReceived_of_bad u hbad]
      rfl
    · rw [hready, judgeReceived_of_request u hf, queueFrame_urgent hroom]
    · rw [hready, judgeReceived_of_request u hf, queueFrame_normal hroom]
    · have hjudged : judgeReceived x.ready bs u =
          if u.lkp.answers.length < 16 then pushAnswer f .queueFull [] u else discardFrame true u := by
        rw [hready]
        rcases hfull with ⟨hf, hlong⟩ | ⟨hf, hlong⟩
        · rw [judgeReceived_of_request u hf, queueFrame_full (urgent := true) hlong]
        · rw [judgeReceived_of_request u hf, queueFrame_full (urgent := false) hlong]
      rw [hjudged]
      exact ⟨fun hplace => congrArg Host.Outcome.next (if_pos hplace),
        fun hnone => congrArg Host.Outcome.next (if_neg (Nat.not_lt.2 hnone))⟩

end Sys2Proof.Machine
end

section
/-! SUPPORT. The state after a cold start and after reset (R186): every record at its cold-start value, the supply lines sampled after
it, and the invariants that hold of it. -/

namespace Sys2Proof.Machine

/-! ## The records at their cold-start values -/

section
variable (strap : Strap) (queue : List Instr)

/-! PDR (R19) -/

theorem kind_coldStart (r : Fin 8) : (State.coldStart strap queue).kind r = .unused := Vector.get_replicate ..

theorem ending_coldStart (r : Fin 8) : (State.coldStart strap queue).pdr.ending.get r = 0 := Vector.get_replicate ..

theorem floor_coldStart (r : Fin 8) : (State.coldStart strap queue).floor r = [] := Vector.get_replicate ..

theorem stagingLane_coldStart (d : Fin 24) : (State.coldStart strap queue).stagingLane d = {} := Vector.get_replicate ..

theorem doorPallets_coldStart (d : Fin 24) : (State.coldStart strap queue).doorPallets d = [] := Vector.get_replicate ..

/-! CTB (R45) -/

theorem cls_coldStart (c : Fin 16) : (State.coldStart strap queue).cls c = {} := Vector.get_replicate ..

/-! MDS (R76) -/

theorem terminal_coldStart (k : Fin 16) : (State.coldStart strap queue).terminal k = {} := Vector.get_replicate ..

/-! DKC (R102) -/

theorem door_coldStart (d : Fin 24) : (State.coldStart strap queue).door d = {} := Vector.get_replicate ..

theorem hold_coldStart (r : Fin 8) : (State.coldStart strap queue).hold r = {} := Vector.get_replicate ..

/-! TSU (R120) -/

theorem probe_coldStart (p : Fin 32) : (State.coldStart strap queue).probe p = {} := Vector.get_replicate ..

theorem thermal_coldStart (r : Fin 8) : (State.coldStart strap queue).thermal r = {} := Vector.get_replicate ..

/-! DFC (R144) -/

theorem evap_coldStart (e : Fin 12) : (State.coldStart strap queue).evap e = {} := Vector.get_replicate ..

/-! LPL (R170) -/

theorem laneRec_coldStart (l : Lane) : (State.coldStart strap queue).laneRec l = {} := Vector.get_replicate ..

theorem station_coldStart (st : StationId) : (State.coldStart strap queue).station st = {} := Vector.get_replicate ..

/-- R144: after a cold start no evaporator holds heater allowance. -/
theorem allowanceUsed_coldStart : (State.coldStart strap queue).allowanceUsed = 0 := by
  simp [State.allowanceUsed, evap_coldStart]

/-- R45: after a cold start no handle names a record. -/
theorem pallet_coldStart (h : Handle) : (State.coldStart strap queue).pallet? h = none := by
  by_contra hne
  obtain ⟨p, hp⟩ := Option.ne_none_iff_exists'.1 hne
  obtain ⟨-, -, hrec⟩ := pallet_eq_some hp
  cases hrec

end

/-! ## A state that `settle` leaves alone -/

/-- R177: where the MOVE cause is already true, judging it again changes nothing. -/
theorem syncMove_of_true {s : State} (h : MoveCauseTrue s) : syncMove s = s := by
  rw [syncMove, ← h]
  rfl

theorem settle_of_true {s : State} (hretry : RetryTrue s) (hmove : MoveCauseTrue s) : settle s = s := by
  rw [settle, syncRetry_of_true hretry, syncMove_of_true hmove]

/-! ## The cold start and the supply lines (R186) -/

/-- R186: the state at the end of a cold start, before the supply lines are sampled. -/
def coldStarted (strap : Strap) (s : State) : State := (State.coldStart strap s.pending).withFreeDraws s.freeDraws

section
variable (strap : Strap) (order : List Block) (s : State)

theorem settle_coldStarted : settle (coldStarted strap s) = coldStarted strap s := settle_of_true rfl rfl

/-- R194: BATTERY_LOW alone is recorded, and no mode changes. -/
theorem settle_takeBatteryLow_coldStarted :
    settle (takeBatteryLow order (coldStarted strap s)) = takeBatteryLow order (coldStarted strap s) := by
  rw [takeBatteryLow_of_supplied rfl]
  exact settle_of_true rfl rfl

theorem exec_coldStart_inactive : exec (.coldStart strap false false order) s = .next (coldStarted strap s) :=
  congrArg Host.Outcome.next (settle_coldStarted strap s)

/-- R186: SUPPLY_FAIL found active is taken as becoming active. -/
theorem exec_coldStart_supplyFail :
    exec (.coldStart strap true false order) s = exec (.supplyFailActive order) (coldStarted strap s) :=
  (exec_supplyFailActive_of_new (s := coldStarted strap s) rfl).symm

/-- R186: BATTERY_LOW found active is taken as becoming active. -/
theorem exec_coldStart_batteryLow :
    exec (.coldStart strap false true order) s = exec (.batteryLowActive order) (coldStarted strap s) :=
  (exec_batteryLowActive_of_new (s := coldStarted strap s) rfl).symm

theorem exec_batteryLowActive_coldStarted :
    exec (.batteryLowActive order) (coldStarted strap s) = .next (takeBatteryLow order (coldStarted strap s)) :=
  (exec_batteryLowActive_of_new rfl).trans (congrArg Host.Outcome.next (settle_takeBatteryLow_coldStarted strap order s))

/-- R186: of two lines found active, SUPPLY_FAIL is taken in the state that BATTERY_LOW has left. -/
theorem exec_coldStart_both : exec (.coldStart strap true true order) s =
    exec (.supplyFailActive order) (takeBatteryLow order (coldStarted strap s)) := by
  have hsupplied : (takeBatteryLow order (coldStarted strap s)).moc.supplyFail = false := by
    rw [takeBatteryLow_of_supplied rfl]
    rfl
  exact (exec_supplyFailActive_of_new hsupplied).symm

/-- R177, R183: LINK is pending and unmasked, so ATTN is active. -/
theorem attn_coldStarted : (coldStarted strap s).attn = true := (attn_iff _).2 ⟨.link, rfl, rfl⟩

end

/-! ## The statements -/

/-- Settles O4: block by block the records at their cold-start values, then the sampled lines as the commands of the lines. -/
theorem coldStartLeavesTheStatedValues : Obligations.ColdStartLeavesTheStatedValues := by
  refine ⟨fun strap order s => ?values, fun strap order s t ht => ?lines⟩
  case values =>
    have hrooms r : (coldStarted strap s).kind r = .unused ∧ (coldStarted strap s).pdr.ending.get r = 0
        ∧ (coldStarted strap s).floor r = [] :=
      ⟨kind_coldStart strap s.pending r, ending_coldStart strap s.pending r, floor_coldStart strap s.pending r⟩
    have hdoors d : (coldStarted strap s).stagingLane d = {} ∧ (coldStarted strap s).doorPallets d = [] :=
      ⟨stagingLane_coldStart strap s.pending d, doorPallets_coldStart strap s.pending d⟩
    have hlanes l : ((coldStarted strap s).laneRec l).polling = .stopped ∧ ((coldStarted strap s).laneRec l).position = none
        ∧ ((coldStarted strap s).laneRec l).todo = [] := by
      have hlane : (coldStarted strap s).laneRec l = {} := laneRec_coldStart strap s.pending l
      rw [hlane]
      exact ⟨rfl, rfl, rfl⟩
    exact ⟨coldStarted strap s, exec_coldStart_inactive strap order s, rfl, rfl, rfl,
      hrooms, fun _ => rfl, hdoors,
      cls_coldStart strap s.pending, fun _ => rfl,
      fun _ => rfl, rfl, rfl, terminal_coldStart strap s.pending,
      door_coldStart strap s.pending, hold_coldStart strap s.pending,
      probe_coldStart strap s.pending, thermal_coldStart strap s.pending, rfl, rfl,
      evap_coldStart strap s.pending, rfl, rfl,
      rfl, rfl,
      hlanes, station_coldStart strap s.pending,
      rfl, rfl, rfl, rfl, rfl, rfl, rfl, rfl, rfl, rfl, rfl, rfl, rfl, attn_coldStarted strap s,
      rfl⟩
  case lines =>
    cases (exec_coldStart_inactive strap order s).symm.trans ht
    refine ⟨exec_coldStart_supplyFail strap order s, exec_coldStart_batteryLow strap order s, fun u hu => ?_⟩
    cases (exec_batteryLowActive_coldStarted strap order s).symm.trans hu
    exact exec_coldStart_both strap order s

/-- Settles O5: each bound from the cold-start values of the records that it speaks of (`State.reset` is log entry 16). -/
theorem resetKeepsTheBounds : Obligations.ResetKeepsTheBounds := by
  have htables : TablesCanonical State.reset := ⟨rfl, rfl, rfl⟩
  have hlink : LinkBounded State.reset := ⟨Nat.zero_le 8, Nat.zero_le 24, Nat.zero_le 16, Nat.zero_le 255⟩
  have halarms : AlarmsBounded State.reset := ⟨Nat.zero_le 64, Nat.zero_le 255, List.forall_mem_nil _, .nil⟩
  have hlanes : LanesBounded State.reset := fun d => by
    rw [State.reset, stagingLane_coldStart]
    exact Nat.zero_le 6
  have hclock : ClockBounded State.reset := Nat.zero_le 4294967295
  have hallowance : AllowanceBounded State.reset := by
    have hused : State.reset.allowanceUsed = 0 := allowanceUsed_coldStart ..
    have htwo : State.reset.dfc.allowance = 2 := rfl
    simp [AllowanceBounded, hused, htwo]
  have hchecks : ChecksInChecking State.reset := ⟨fun h => absurd h Bool.false_ne_true, fun h => absurd h Bool.false_ne_true⟩
  have hloads : LoadsBounded State.reset := by
    refine ⟨fun e => ?frost, fun h p hp => ?exposure⟩
    case frost =>
      rw [State.reset, evap_coldStart]
      exact Nat.zero_le 1000
    case exposure => cases (pallet_coldStart .hostOnly [] h).symm.trans hp
  exact ⟨htables, hlink, rfl, halarms, hlanes, hclock, hallowance, hchecks, rfl, hloads⟩

end Sys2Proof.Machine
end

section
/-! SUPPORT. What a command can write: the writes it is made of, each with what guards it, and at most one frame put into a queue of
the link. A bound that every one of these keeps is kept by every step, so each invariant is proved write by write. -/

namespace Sys2Proof.Machine

/-! ## The writes -/

/-- `b` holds no more frames than `a`, and no more discards but up to 255 (R172). -/
structure Lkp.Within (a b : Lkp) : Prop where
  urgent : b.urgent.length ≤ a.urgent.length
  normal : b.normal.length ≤ a.normal.length
  answers : b.answers.length ≤ a.answers.length
  discards : b.discards ≤ max 255 a.discards

/-- From `x` to `y` an evaporator takes no heater allowance, and frost at most up to a full load (R125). -/
structure Evap.Within (x y : Evap) : Prop where
  held : y.allowanceHeld = true → x.allowanceHeld = true
  frost : y.frost ≤ max Config.frostFull x.frost

/-- A link whose queues and discard count stand as they were. -/
theorem Lkp.Within.same {a b : Lkp} (hurgent : b.urgent = a.urgent) (hnormal : b.normal = a.normal)
    (hanswers : b.answers = a.answers) (hdiscards : b.discards = a.discards) : a.Within b :=
  ⟨hurgent ▸ le_rfl, hnormal ▸ le_rfl, hanswers ▸ le_rfl, hdiscards ▸ le_max_right _ _⟩

/-- An evaporator whose allowance and frost load stand as they were. -/
theorem Evap.Within.same {x y : Evap} (hheld : y.allowanceHeld = x.allowanceHeld) (hfrost : y.frost = x.frost) : x.Within y :=
  ⟨fun h => hheld ▸ h, hfrost ▸ le_max_right _ _⟩

/-- What is left of an alarm record, if anything is, has its pair and its raise count (R150, R153). -/
def KeepsPair (g : AlarmRec → Option AlarmRec) : Prop :=
  ∀ r q, g r = some q → q.kind = r.kind ∧ q.subject = r.subject ∧ q.count = r.count

/-- One write of a command, with its guard. The queue of commands is never written. -/
inductive Write : State → State → Prop
  | places (s : State) (b : Pdr) (hslots : b.slots = s.pdr.slots) (hlanes : b.lanes = s.pdr.lanes) : Write s (s.withPdr b)
  | slot (s : State) (n : Nat) (v : SlotState) : Write s (s.setSlot n v)
  | slotMap (s : State) (ending : Vector Nat 8) : Write s (setSlotMap ending s)
  | stagingLane (s : State) (d : Fin 24) (f : StagingLane → StagingLane)
      (hload : (s.stagingLane d).load ≤ Config.laneCapacity → (f (s.stagingLane d)).load ≤ Config.laneCapacity) :
      Write s (s.updStagingLane d f)
  | classes (s : State) (classes : Vector ClassRec 16) : Write s (s.withCtb { s.ctb with classes := classes })
  | pallet (s : State) (h : Handle) (f : Pallet → Pallet)
      (hexposure : ∀ p, p.exposure ≤ Config.exposureMax → (f p).exposure ≤ Config.exposureMax) : Write s (s.updPallet h f)
  | entry (s : State) (i : Nat) (x : PalletEntry) (hexposure : ∀ p, x.rec? = some p → p.exposure ≤ Config.exposureMax) :
      Write s (s.setEntry i x)
  | order (s : State) (i : Nat) (x : OrderEntry) : Write s (s.setOrderEntry i x)
  | dispatcher (s : State) (b : Mds) (hentries : b.entries = s.mds.entries) : Write s (s.withMds b)
  | ordersRestart (s : State) : Write s (mdsWarmRestart s)
  | dkc (s : State) (b : Dkc) : Write s (s.withDkc b)
  | tsu (s : State) (b : Tsu) : Write s (s.withTsu b)
  | dfc (s : State) (b : Dfc) (hallowance : b.allowance = s.dfc.allowance)
      (hevaps : ∀ e, Evap.Within (s.evap e) (b.evaps.get e)) : Write s (s.withDfc b)
  | grant (s : State) (e : Fin 12) (hroom : s.allowanceUsed < s.dfc.allowance) :
      Write s (s.updEvap e fun x => { x with allowanceHeld := true, holdConfirmed := false, heatTerminated := false })
  | allowance (s : State) (n : Nat) (hrange : 1 ≤ n ∧ n ≤ 4) (hused : s.allowanceUsed ≤ n) :
      Write s (s.withDfc { s.dfc with allowance := n })
  | raise (s : State) (k : AlarmKind) (sub : Subject) (v : Option AlarmValue) : Write s (s.withAlt (s.alt.raise s.now k sub v))
  | alarms (s : State) (g : AlarmRec → Option AlarmRec) (hpair : KeepsPair g) :
      Write s (s.withAlt { s.alt with records := s.alt.records.filterMap g })
  | unlisted (s : State) : Write s (s.withAlt { s.alt with unlisted := 0 })
  | lpl (s : State) (b : Lpl) : Write s (s.withLpl b)
  | lkp (s : State) (b : Lkp) (hwithin : s.lkp.Within b) : Write s (s.withLkp b)
  | moc (s : State) (b : Moc) : Write s (s.withMoc b)
  | timeBase (s : State) (n : Nat) : Write s (s.withTimeBase n)
  | freeDraws (s : State) (n : Nat) : Write s (s.withFreeDraws n)
  | coldStart (s : State) (strap : Strap) : Write s (coldStarted strap s)

/-- Any number of writes, one after the other. -/
abbrev Writes : State → State → Prop := Relation.ReflTransGen Write

/-- At most one frame joins a queue of the link that has a place for it (R172, R173). -/
inductive Push : State → State → Prop
  | none (s : State) : Push s s
  | answer (s : State) (f : RequestFrame) (rc : ResultCode) (results : List Byte) (hready : s.ready = true) :
      Push s (pushAnswer f rc results s)
  | urgent (s : State) (f : RequestFrame) (hroom : s.lkp.urgent.length < Config.urgentPlaces) :
      Push s (s.withLkp { s.lkp with urgent := s.lkp.urgent ++ [f] })
  | normal (s : State) (f : RequestFrame) (hroom : s.lkp.normal.length < Config.normalPlaces) :
      Push s (s.withLkp { s.lkp with normal := s.lkp.normal ++ [f] })

/-- What a command does: writes, at most one frame queued, and writes. -/
def Runs (s t : State) : Prop := ∃ u v, Writes s u ∧ Push u v ∧ Writes v t

theorem Writes.refl (s : State) : Writes s s := Relation.ReflTransGen.refl

theorem Writes.keeps {P : State → Prop} (hw : ∀ s t, Write s t → P s → P t) {s t : State} (h : Writes s t) (hs : P s) : P t := by
  induction h with
  | refl => exact hs
  | tail _ hwrite ih => exact hw _ _ hwrite ih

/-- A property that every write and every queued frame keeps, a command keeps. -/
theorem Runs.keeps {P : State → Prop} (hw : ∀ s t, Write s t → P s → P t) (hp : ∀ s t, Push s t → P s → P t) {s t : State}
    (h : Runs s t) (hs : P s) : P t := by
  obtain ⟨u, v, hbefore, hpush, hafter⟩ := h
  exact hafter.keeps hw (hp u v hpush (hbefore.keeps hw hs))

theorem Writes.runs {s t : State} (h : Writes s t) : Runs s t := ⟨t, t, h, .none t, .refl t⟩

theorem Runs.then_writes {s t u : State} (h : Runs s t) (hu : Writes t u) : Runs s u := by
  obtain ⟨v, w, hbefore, hpush, hafter⟩ := h
  exact ⟨v, w, hbefore, hpush, hafter.trans hu⟩

theorem Writes.then_runs {s t u : State} (h : Writes s t) (hu : Runs t u) : Runs s u := by
  obtain ⟨v, w, hbefore, hpush, hafter⟩ := hu
  exact ⟨v, w, h.trans hbefore, hpush, hafter⟩

theorem runs_ite {c : Prop} [Decidable c] {s t u : State} (ht : Runs s t) (hu : Runs s u) : Runs s (if c then t else u) := by
  split
  · exact ht
  · exact hu

/-! ## The blocks

Each lemma adds one operation to the writes made so far, so that the proof for an operation reads as the operation does. -/

section
variable {s t u : State} {k : AlarmKind} {sub : Subject} {v : Option AlarmValue} {e : Fin 12} {d : Fin 24} {r : Fin 8} {p : Fin 32}
  {st : StationId} {before after : Bool}

theorem writes_ite {c : Prop} [Decidable c] (ht : Writes s t) (hu : Writes s u) : Writes s (if c then t else u) := by
  split
  · exact ht
  · exact hu

theorem writes_forEach {α : Type} {f : α → State → State} {xs : List α} (h : Writes s t)
    (hf : ∀ x {u}, Writes s u → Writes s (f x u)) : Writes s (t.forEach xs f) :=
  forEach_keeps (Writes s) f (fun x _ => hf x) xs t h

theorem writes_withDkc {b : Dkc} (h : Writes s t) : Writes s (t.withDkc b) := h.tail (.dkc ..)
theorem writes_withTsu {b : Tsu} (h : Writes s t) : Writes s (t.withTsu b) := h.tail (.tsu ..)
theorem writes_withLpl {b : Lpl} (h : Writes s t) : Writes s (t.withLpl b) := h.tail (.lpl ..)
theorem writes_withMoc {b : Moc} (h : Writes s t) : Writes s (t.withMoc b) := h.tail (.moc ..)
theorem writes_withFreeDraws {n : Nat} (h : Writes s t) : Writes s (t.withFreeDraws n) := h.tail (.freeDraws ..)

/-- A write of MDS beside the order table. -/
theorem writes_withMds {b : Mds} (h : Writes s t) (hentries : b.entries = t.mds.entries) : Writes s (t.withMds b) :=
  h.tail (.dispatcher _ _ hentries)

/-- A write of the link that lengthens no queue. -/
theorem writes_withLkp {b : Lkp} (h : Writes s t) (hwithin : t.lkp.Within b) : Writes s (t.withLkp b) :=
  h.tail (.lkp _ _ hwithin)

theorem writes_setOrderEntry {i : Nat} {x : OrderEntry} (h : Writes s t) : Writes s (t.setOrderEntry i x) := h.tail (.order ..)
theorem writes_updOrder {o : OrderId} {f : Order → Order} (h : Writes s t) : Writes s (t.updOrder o f) := writes_setOrderEntry h
theorem writes_updTerminal {i : Fin 16} {f : Terminal → Terminal} (h : Writes s t) : Writes s (t.updTerminal i f) :=
  writes_withMds h rfl
theorem writes_updDoor {f : Door → Door} (h : Writes s t) : Writes s (t.updDoor d f) := writes_withDkc h
theorem writes_updHold {f : RoomHold → RoomHold} (h : Writes s t) : Writes s (t.updHold r f) := writes_withDkc h
theorem writes_updProbe {f : Probe → Probe} (h : Writes s t) : Writes s (t.updProbe p f) := writes_withTsu h
theorem writes_updThermal {f : RoomThermal → RoomThermal} (h : Writes s t) : Writes s (t.updThermal r f) := writes_withTsu h
theorem writes_updLane {l : Lane} {f : LaneRec → LaneRec} (h : Writes s t) : Writes s (t.updLane l f) := writes_withLpl h
theorem writes_updStation {f : Station → Station} (h : Writes s t) : Writes s (t.updStation st f) := writes_withLpl h

/-- A change of a pallet's record that keeps its exposure within 16 bits. -/
theorem writes_updPallet {x : Handle} {f : Pallet → Pallet} (h : Writes s t)
    (hexposure : ∀ p, p.exposure ≤ Config.exposureMax → (f p).exposure ≤ Config.exposureMax) :
    Writes s (t.updPallet x f) :=
  h.tail (.pallet _ _ _ hexposure)

/-- An evaporator's record changes. -/
theorem writes_updEvap {f : Evap → Evap} (h : Writes s t) (hevap : ∀ x, Evap.Within x (f x)) : Writes s (t.updEvap e f) := by
  refine h.tail (.dfc _ _ rfl fun g => ?_)
  have hread : (upd t.dfc.evaps e f).get g = if g = e then f (t.evap e) else t.evap g := upd_get ..
  dsimp only
  rw [hread]
  split
  next hg => exact hg ▸ hevap _
  next => exact .same rfl rfl

/-- Every evaporator's record changes, and the frost interval. -/
theorem writes_mapEvaps {f : Evap → Evap} {due : Option Time} (h : Writes s t) (hevap : ∀ x, Evap.Within x (f x)) :
    Writes s (t.withDfc { t.dfc with evaps := t.dfc.evaps.map f, frostDue := due }) := by
  refine h.tail (.dfc _ _ rfl fun g => ?_)
  have hread : (t.dfc.evaps.map f).get g = f (t.evap g) := Vector.getElem_map ..
  dsimp only
  rw [hread]
  exact hevap _

theorem writes_frostDue {due : Option Time} (h : Writes s t) : Writes s (t.withDfc { t.dfc with frostDue := due }) :=
  h.tail (.dfc _ _ rfl fun _ => .same rfl rfl)

/-! ## Causes, alarms and commands placed -/

theorem writes_setCause {c : Cause} (h : Writes s t) : Writes s (setCause c t) := writes_withLkp h (.same rfl rfl rfl rfl)
theorem writes_setDoorCause (h : Writes s t) : Writes s (setDoorCause d t) := writes_withLkp h (.same rfl rfl rfl rfl)
theorem writes_setDefrostCause (h : Writes s t) : Writes s (setDefrostCause e t) := writes_withLkp h (.same rfl rfl rfl rfl)
theorem writes_setRoomCause (h : Writes s t) : Writes s (setRoomCause r t) := writes_withLkp h (.same rfl rfl rfl rfl)

theorem writes_clearCause {c : Cause} (h : Writes s t) : Writes s (clearCause c t) := by
  cases c with
  | move => exact h
  | link => exact writes_withLkp h ⟨le_rfl, le_rfl, le_rfl, Nat.zero_le _⟩
  | _ => exact writes_withLkp h (.same rfl rfl rfl rfl)

theorem writes_discardFrame {b : Bool} (h : Writes s t) : Writes s (discardFrame b t) :=
  writes_withLkp h ⟨le_rfl, le_rfl, le_rfl, (min_le_left _ _).trans (le_max_left _ _)⟩

theorem writes_settle (h : Writes s t) : Writes s (settle t) := writes_withLkp (writes_withMds h rfl) (.same rfl rfl rfl rfl)

theorem writes_raiseAlarm (h : Writes s t) : Writes s (raiseAlarm k sub v t) := writes_setCause (h.tail (.raise ..))

/-- R150: a clear claim keeps the pair and the count of every record it leaves. -/
theorem keepsPair_clear (k : AlarmKind) (sub : Subject) : KeepsPair fun r => if r.isFor k sub then clearRecord r else some r := by
  intro r q hq
  dsimp only at hq
  split at hq
  · unfold clearRecord at hq
    split at hq <;> cases hq
    all_goals exact ⟨rfl, rfl, rfl⟩
  · cases hq
    exact ⟨rfl, rfl, rfl⟩

theorem writes_clearAlarm (h : Writes s t) : Writes s (clearAlarm k sub t) := h.tail (.alarms _ _ (keepsPair_clear k sub))

theorem writes_placeCmd {c : StationCmd} (h : Writes s t) : Writes s (placeCmd st c t) := writes_updStation h
theorem writes_placeDoor {c : DoorCmd} (h : Writes s t) : Writes s (placeDoor d c t) := writes_placeCmd h
theorem writes_placeEvap {c : CtlPhase} (h : Writes s t) : Writes s (placeEvap e c t) := writes_placeCmd h
theorem writes_placeTerm {i : Fin 16} {c : TermCmd} (h : Writes s t) : Writes s (placeTerm i c t) := writes_placeCmd h

theorem writes_configuredChanged (h : Writes s t) : Writes s (configuredChanged st before after t) :=
  writes_ite h (writes_ite (writes_clearAlarm (writes_updStation h)) (writes_updStation h))

end
end Sys2Proof.Machine
end

section
/-! SUPPORT. The writes of DFC with the room hold, and of TSU (R97 to R99, R103 to R144). -/

namespace Sys2Proof.Machine

section
variable {s t : State} {e : Fin 12} {r : Fin 8} {p : Fin 32}

/-! ## Phases (R131 to R137) -/

theorem writes_enterPhase {ph : Phase} {deadline : Option Time} (h : Writes s t) : Writes s (enterPhase e ph deadline t) :=
  writes_setDefrostCause (writes_updEvap h fun _ => .same rfl rfl)

theorem writes_enterPumpdown (h : Writes s t) : Writes s (enterPumpdown e t) :=
  writes_updThermal (writes_clearAlarm (writes_placeEvap (writes_enterPhase h)))

theorem writes_enterHeat (h : Writes s t) : Writes s (enterHeat e t) :=
  writes_placeEvap (writes_updEvap (writes_enterPhase h) fun _ => .same rfl rfl)

theorem writes_enterDrip (h : Writes s t) : Writes s (enterDrip e t) :=
  writes_placeEvap (writes_updEvap (writes_enterPhase h) fun _ => .same rfl rfl)

theorem writes_heldNotice (h : Writes s t) : Writes s (heldNotice e t) := by
  unfold heldNotice
  split
  · exact writes_enterPumpdown (writes_updEvap h fun _ => .same rfl rfl)
  · exact writes_updEvap h fun _ => .same rfl rfl
  · exact h

/-! ## The room hold (R98, R99) -/

theorem writes_becomeHeld (h : Writes s t) : Writes s (becomeHeld r t) :=
  writes_forEach (writes_updHold h) fun _ _ => writes_heldNotice

theorem writes_holdClaim {forced : Bool} (h : Writes s t) : Writes s (holdClaim r e forced t) := by
  have hclaimed : Writes s (t.updHold r fun x => { x with claims := insertClaim e forced x.claims }) := writes_updHold h
  exact writes_ite (writes_heldNotice hclaimed) (writes_ite (writes_becomeHeld hclaimed) (writes_updHold hclaimed))

theorem writes_forcingClaim (h : Writes s t) : Writes s (forcingClaim r e t) := writes_ite (writes_updHold h) h

theorem writes_holdWithdrawal (h : Writes s t) : Writes s (holdWithdrawal r e t) := writes_ite (writes_updHold h) h

theorem writes_reevaluateHold (h : Writes s t) : Writes s (reevaluateHold r t) := writes_ite (writes_becomeHeld h) h

/-! ## The allowance (R128, R129, R132) -/

theorem writes_releaseAllowance (h : Writes s t) : Writes s (releaseAllowance e t) :=
  writes_holdWithdrawal (writes_updEvap h fun _ => ⟨nofun, le_max_right _ _⟩)

/-- R131: a phase change leaves the allowance with its holders. -/
theorem allowanceUsed_enterPhase (e : Fin 12) (ph : Phase) (deadline : Option Time) (s : State) :
    (enterPhase e ph deadline s).allowanceUsed = s.allowanceUsed := by
  have hheld (g : Fin 12) : ((enterPhase e ph deadline s).evap g).allowanceHeld = (s.evap g).allowanceHeld := by
    show ((s.updEvap e _).evap g).allowanceHeld = _
    rw [evap_updEvap]
    split
    next hg => rw [hg]
    next => rfl
  simp only [State.allowanceUsed, hheld]

/-- R132: a grant is made where some allowance is free. -/
theorem writes_grantAllowance (h : Writes s t) (hroom : t.allowanceUsed < t.dfc.allowance) : Writes s (grantAllowance e t) := by
  have hfree : (enterPhase e .allotted none t).allowanceUsed < (enterPhase e .allotted none t).dfc.allowance := by
    rw [allowanceUsed_enterPhase]
    exact hroom
  exact writes_holdClaim ((writes_enterPhase h).tail (.grant _ e hfree))

theorem writes_allowanceLoop {fuel : Nat} (h : Writes s t) : Writes s (allowanceLoop fuel t) := by
  induction fuel generalizing t with
  | zero => exact h
  | succ fuel ih =>
    unfold allowanceLoop
    split
    next hroom =>
      split
      · exact ih (writes_grantAllowance h hroom)
      · exact h
    next => exact h

theorem writes_allowancePass (h : Writes s t) : Writes s (allowancePass t) := writes_ite (writes_allowanceLoop h) h

/-! ## Demand, deferral and frost (R125 to R130) -/

theorem writes_deferralExpires (h : Writes s t) : Writes s (deferralExpires e t) := by
  have hforced : Writes s (raiseAlarm .defrostDeferred (.evap e) none
      (t.updEvap e fun x => { x with forced := true, deferralDue := none })) :=
    writes_raiseAlarm (writes_updEvap h fun _ => .same rfl rfl)
  exact writes_ite (writes_forcingClaim hforced) hforced

theorem writes_startDeferral (h : Writes s t) : Writes s (startDeferral e t) :=
  writes_ite (writes_ite (writes_deferralExpires h) (writes_updEvap h fun _ => .same rfl rfl)) h

theorem writes_raiseDemand (h : Writes s t) : Writes s (raiseDemand e t) :=
  writes_allowancePass (writes_startDeferral (writes_updEvap (writes_enterPhase h) fun _ => .same rfl rfl))

/-- R125: frost added stays within a full load. -/
theorem addFrost_within (n : Nat) (x : Evap) : x.Within (addFrost n x) := ⟨id, (min_le_left _ _).trans (le_max_left _ _)⟩

theorem writes_demandIfFull (h : Writes s t) : Writes s (demandIfFull e t) := writes_ite (writes_raiseDemand h) h

theorem writes_frostExpiry (h : Writes s t) : Writes s (frostExpiry t) :=
  writes_forEach (writes_forEach h fun _ _ h => writes_ite (writes_updEvap h (addFrost_within _)) h) fun _ _ => writes_demandIfFull

theorem writes_portalPassage (h : Writes s t) : Writes s (portalPassage r t) :=
  writes_forEach h fun _ _ h => writes_ite (writes_demandIfFull (writes_updEvap h (addFrost_within _))) h

/-- R137: the frost load at the end of REFREEZE. -/
theorem frost_zero_within {x y : Evap} (hheld : y.allowanceHeld = x.allowanceHeld) (hfrost : y.frost = 0) : x.Within y :=
  ⟨fun h => hheld ▸ h, hfrost ▸ Nat.zero_le _⟩

theorem writes_endDrip (h : Writes s t) : Writes s (endDrip e t) :=
  writes_allowancePass (writes_placeEvap (writes_releaseAllowance (writes_updEvap (writes_enterPhase h) fun _ => .same rfl rfl)))

theorem writes_endRefreeze (h : Writes s t) : Writes s (endRefreeze e t) := by
  have hidle : Writes s (placeEvap e .run (enterPhase e .idle none t)) := writes_placeEvap (writes_enterPhase h)
  exact writes_updEvap (writes_ite (writes_clearAlarm hidle) hidle) fun _ => frost_zero_within rfl rfl

/-! ## Reports, loss, modes and restart (R124, R138, R139, R142, R144) -/

theorem writes_controllerHeard (h : Writes s t) : Writes s (controllerHeard e t) := by
  have hheard : Writes s (t.updEvap e fun x => { x with lost := false }) := writes_updEvap h fun _ => .same rfl rfl
  unfold controllerHeard
  split
  · exact writes_ite (writes_clearAlarm (writes_enterDrip hheard))
      (writes_clearAlarm (writes_startDeferral (writes_enterPhase hheard)))
  · exact writes_allowancePass hheard
  · exact hheard

theorem writes_controllerPhaseEffect {fresh before : Bool} {rep : CtlReport} (h : Writes s t) :
    Writes s (controllerPhaseEffect e fresh before rep t) := by
  unfold controllerPhaseEffect
  dsimp only
  split
  · exact writes_ite (writes_enterDrip (writes_updEvap h fun _ => .same rfl rfl)) h
  · exact writes_ite (writes_updEvap h fun _ => .same rfl rfl) h
  · exact writes_ite (writes_endRefreeze h) h
  · exact h

theorem writes_controllerDisagree {rep : CtlReport} (h : Writes s t) : Writes s (controllerDisagree e rep t) := by
  unfold controllerDisagree
  split
  · exact h
  · exact writes_ite (writes_placeEvap h) h

theorem writes_takeControllerReport {fresh : Bool} {rep : CtlReport} (h : Writes s t) :
    Writes s (takeControllerReport e fresh rep t) :=
  writes_controllerDisagree (writes_controllerPhaseEffect (writes_updEvap h fun _ => .same rfl rfl))

theorem writes_controllerLost (h : Writes s t) : Writes s (controllerLost e t) := by
  have hlost : Writes s (t.updEvap e fun x => { x with lost := true }) := writes_updEvap h fun _ => .same rfl rfl
  unfold controllerLost
  split
  · refine writes_allowancePass (writes_startDeferral ?_)
    exact writes_updEvap (writes_releaseAllowance (writes_enterPhase hlost)) fun _ => .same rfl rfl
  · exact writes_raiseAlarm (writes_enterPhase hlost)
  · exact writes_raiseAlarm (writes_enterPhase hlost)
  · exact writes_raiseAlarm (writes_enterPhase hlost)
  · exact hlost

theorem writes_stopFrost (h : Writes s t) : Writes s (stopFrost t) := writes_mapEvaps h fun _ => .same rfl rfl

theorem writes_abandonDefrost (h : Writes s t) : Writes s (abandonDefrost e t) := by
  have hdemanded := writes_updEvap (e := e) (f := fun x => { x with holdConfirmed := false, heatTerminated := false })
    (writes_releaseAllowance (e := e) (writes_enterPhase (e := e) (ph := .demanded) (deadline := none) h)) fun _ => .same rfl rfl
  unfold abandonDefrost
  split
  · exact hdemanded
  · exact writes_placeEvap hdemanded
  · exact writes_placeEvap hdemanded
  · exact writes_placeEvap hdemanded
  · exact writes_placeEvap (writes_updEvap (writes_enterPhase h) fun _ => frost_zero_within rfl rfl)
  · exact h

theorem writes_dfcNotice {entered : Mode} (h : Writes s t) : Writes s (dfcNotice entered t) := by
  cases entered with
  | standby | checking => exact writes_stopFrost h
  | holdover | retain => exact writes_forEach (writes_stopFrost h) fun _ _ => writes_abandonDefrost
  | run => exact writes_allowancePass (writes_forEach (writes_frostDue h) fun _ _ => writes_startDeferral)

theorem writes_dfcWarmRestart (h : Writes s t) : Writes s (dfcWarmRestart t) :=
  writes_forEach (writes_stopFrost h) fun _ _ h => writes_ite (writes_enterPhase h) h

/-! ## TSU (R104 to R112, R120) -/

theorem writes_deriveRoom (h : Writes s t) : Writes s (deriveRoom r t) :=
  writes_updThermal (writes_forEach h fun _ _ => writes_updProbe)

theorem writes_evaluationAlarms {before after : RoomThermal} (h : Writes s t) : Writes s (evaluationAlarms r before after t) := by
  unfold evaluationAlarms
  split
  · exact writes_clearAlarm (writes_clearAlarm h)
  · exact writes_clearAlarm h
  · exact writes_ite (writes_clearAlarm h) (writes_raiseAlarm (writes_clearAlarm h))
  · exact h

theorem writes_staleAlarm (h : Writes s t) : Writes s (staleAlarm r t) := by
  unfold staleAlarm
  dsimp only
  split
  · exact writes_ite (writes_raiseAlarm (writes_updThermal h)) h
  · exact h

theorem writes_noteThermalChange {before : ThermalState} (h : Writes s t) : Writes s (noteThermalChange r before t) :=
  writes_ite h (writes_setRoomCause h)

theorem writes_evaluateRoom (h : Writes s t) : Writes s (evaluateRoom r t) :=
  writes_noteThermalChange (writes_updThermal (writes_ite (writes_staleAlarm (writes_evaluationAlarms (writes_updThermal h)))
    (writes_ite (writes_clearAlarm (writes_clearAlarm (writes_updThermal h))) (writes_updThermal h))))

theorem writes_probeStatusAlarm {before : ProbeStatus} (h : Writes s t) : Writes s (probeStatusAlarm p before t) :=
  writes_ite h (writes_ite (writes_clearAlarm h) (writes_raiseAlarm h))

theorem writes_takeProbeEntry {en : ProbeEntry} (h : Writes s t) : Writes s (takeProbeEntry p en t) :=
  writes_ite (writes_probeStatusAlarm (writes_updProbe h)) h

theorem writes_takeProbeReport {p0 p1 p2 p3 : ProbeEntry} (h : Writes s t) : Writes s (takeProbeReport r p0 p1 p2 p3 t) :=
  writes_evaluateRoom (writes_deriveRoom
    (writes_takeProbeEntry (writes_takeProbeEntry (writes_takeProbeEntry (writes_takeProbeEntry h)))))

theorem writes_hubLost (h : Writes s t) : Writes s (hubLost r t) :=
  writes_evaluateRoom (writes_deriveRoom
    (writes_forEach h fun _ _ h => writes_ite (writes_probeStatusAlarm (writes_updProbe h)) h))

theorem writes_modeSilence (h : Writes s t) : Writes s (modeSilence t) :=
  writes_forEach (writes_withTsu h) fun _ _ => writes_deriveRoom

theorem writes_evaluateAll (h : Writes s t) : Writes s (evaluateAll t) := writes_forEach h fun _ _ => writes_evaluateRoom

theorem writes_tsuWarmRestart (h : Writes s t) : Writes s (tsuWarmRestart t) :=
  writes_evaluateAll (writes_modeSilence (writes_withTsu h))

end
end Sys2Proof.Machine
end

section
/-! SUPPORT. The writes of PDR and CTB by their claims, and of MDS with DKC's use lists and session counts (R7 to R11, R26 to R43,
R46 to R76). -/

namespace Sys2Proof.Machine

section
variable {s t u : State} {d : Fin 24} {r : Fin 8} {i : Fin 16} {o : OrderId} {x : Handle} {pl : Place}

/-! ## PDR's claims (R7 to R11) -/

theorem writes_setSlot {n : Nat} {v : SlotState} (h : Writes s t) : Writes s (t.setSlot n v) := h.tail (.slot ..)
theorem writes_updFloor {f : List Handle → List Handle} (h : Writes s t) : Writes s (t.updFloor r f) := h.tail (.places _ _ rfl rfl)
theorem writes_updDoorPallets {f : List Handle → List Handle} (h : Writes s t) : Writes s (t.updDoorPallets d f) :=
  h.tail (.places _ _ rfl rfl)

/-- R4: one more reservation, where the lane's capacity leaves a place. -/
theorem writes_reserveLane (h : Writes s t) (hroom : (t.stagingLane d).load < Config.laneCapacity) :
    Writes s (t.updStagingLane d fun l => { l with reserved := l.reserved + 1 }) :=
  h.tail (.stagingLane _ _ _ fun _ => hroom)

/-- R4: one more member, where the lane's capacity leaves a place. -/
theorem writes_joinLane (h : Writes s t) (hroom : (t.stagingLane d).load < Config.laneCapacity) :
    Writes s (t.updStagingLane d fun l => { l with members := l.members ++ [x] }) := by
  refine h.tail (.stagingLane _ _ _ fun _ => ?_)
  simp only [StagingLane.load, List.length_append, List.length_singleton] at hroom ⊢
  omega

/-- R8: a reservation becomes a member. -/
theorem writes_commitLane (h : Writes s t) (hreserved : 1 ≤ (t.stagingLane d).reserved) :
    Writes s (t.updStagingLane d fun l => { l with reserved := l.reserved - 1, members := l.members ++ [x] }) := by
  refine h.tail (.stagingLane _ _ _ fun hload => ?_)
  simp only [StagingLane.load, List.length_append, List.length_singleton] at hload ⊢
  omega

/-- R9: a reservation is given up. -/
theorem writes_releaseLane (h : Writes s t) : Writes s (t.updStagingLane d fun l => { l with reserved := l.reserved - 1 }) :=
  h.tail (.stagingLane _ _ _ (Nat.add_le_add_left (Nat.sub_le ..) _).trans)

/-- R10: a member leaves. -/
theorem writes_leaveLane (h : Writes s t) : Writes s (t.updStagingLane d fun l => { l with members := l.members.erase x }) :=
  h.tail (.stagingLane _ _ _ (Nat.add_le_add_right List.length_erase_le _).trans)

theorem writes_reserveClaim {dest : Dest} (h : Writes s t) (hc : reserveClaim o dest t = .ok (pl, u)) : Writes s u := by
  unfold reserveClaim at hc
  repeat' split at hc
  all_goals cases hc
  · exact writes_setSlot h
  · exact writes_setSlot h
  next hroom => exact writes_reserveLane h hroom
  · exact h
  · exact h

theorem writes_commitClaim (h : Writes s t) (hc : commitClaim o x pl t = some u) : Writes s u := by
  cases pl with
  | slot n =>
    obtain ⟨-, rfl⟩ := Option.ite_some_none_eq_some.1 hc
    exact writes_setSlot h
  | lane d =>
    obtain ⟨hreserved, rfl⟩ := Option.ite_some_none_eq_some.1 hc
    exact writes_commitLane h hreserved
  | atDoor d =>
    cases hc
    exact writes_updDoorPallets h
  | floor r =>
    cases hc
    exact writes_updFloor h
  | carried o => cases hc

theorem writes_releaseClaim (h : Writes s t) : Writes s (releaseClaim o pl t) := by
  cases pl with
  | slot n => exact writes_ite (writes_setSlot h) h
  | lane d => exact writes_ite (writes_releaseLane h) h
  | _ => exact h

theorem writes_vacateClaim (h : Writes s t) (hc : vacateClaim x pl t = some u) : Writes s u := by
  cases pl with
  | slot n =>
    obtain ⟨-, rfl⟩ := Option.ite_some_none_eq_some.1 hc
    exact writes_setSlot h
  | lane d =>
    obtain ⟨-, rfl⟩ := Option.ite_some_none_eq_some.1 hc
    exact writes_leaveLane h
  | atDoor d =>
    obtain ⟨-, rfl⟩ := Option.ite_some_none_eq_some.1 hc
    exact writes_updDoorPallets h
  | floor r =>
    obtain ⟨-, rfl⟩ := Option.ite_some_none_eq_some.1 hc
    exact writes_updFloor h
  | carried o => cases hc

theorem writes_vacateClaim_getD (h : Writes s t) : Writes s ((vacateClaim x pl t).getD t) := by
  cases hc : vacateClaim x pl t with
  | none => exact h
  | some u => exact writes_vacateClaim h hc

theorem writes_occupyClaim (h : Writes s t) (hc : occupyClaim x pl t = .ok u) : Writes s u := by
  unfold occupyClaim at hc
  repeat' split at hc
  all_goals cases hc
  · exact writes_setSlot h
  next hroom => exact writes_joinLane h hroom
  · exact writes_updDoorPallets h
  · exact writes_updFloor h

/-! ## CTB's claims (R26 to R40) -/

theorem writes_bindClaim (h : Writes s t) (hc : bindClaim x o t = some u) : Writes s u := by
  unfold bindClaim at hc
  repeat' split at hc
  all_goals cases hc
  exact writes_updPallet h fun _ => id

theorem writes_boundClaim {f : Pallet → Pallet} (h : Writes s t)
    (hexposure : ∀ p, p.exposure ≤ Config.exposureMax → (f p).exposure ≤ Config.exposureMax) :
    Writes s (boundClaim x o f t) := by
  unfold boundClaim
  split
  · exact writes_ite (writes_updPallet h hexposure) h
  · exact h

theorem writes_pickClaim (h : Writes s t) : Writes s (pickClaim x o t) := writes_boundClaim h fun _ => id
theorem writes_dropClaim (h : Writes s t) : Writes s (dropClaim x o pl t) := writes_boundClaim h fun _ => id
theorem writes_unbindClaim (h : Writes s t) : Writes s (unbindClaim x o t) := writes_boundClaim h fun _ => id

theorem writes_abandonClaim (h : Writes s t) : Writes s (abandonClaim x o r t) := by
  unfold abandonClaim
  split
  · exact writes_ite (writes_raiseAlarm (writes_updPallet h fun _ => id)) h
  · exact h

/-- R30: a new record's exposure is 0. -/
theorem writes_admitPallet {n : Nat} {tag : Tag} {c : Fin 16} (h : Writes s t) : Writes s (admitPallet n tag c d t).2 := by
  refine writes_updDoorPallets (h.tail (.entry _ _ _ fun p hp => ?_))
  cases hp
  exact Nat.zero_le _

theorem writes_retirePallet (h : Writes s t) : Writes s (retirePallet x t) := by
  unfold retirePallet
  split
  · exact h
  · exact (writes_clearAlarm (writes_clearAlarm (writes_vacateClaim_getD h))).tail (.entry _ _ _ nofun)

theorem writes_retireDoorSet (h : Writes s t) : Writes s (retireDoorSet d t).2 := writes_forEach h fun _ _ => writes_retirePallet

/-! ## Sessions and use lists (R95, R96) -/

theorem writes_useListEntry (h : Writes s t) (hc : useListEntry d o t = some u) : Writes s u := by
  obtain ⟨-, rfl⟩ := Option.ite_some_none_eq_some.1 hc
  exact writes_updDoor h

theorem writes_leaveUseList {route : Option (Fin 24)} (h : Writes s t) : Writes s (leaveUseList route o t) := by
  cases route with
  | none => exact h
  | some d => exact writes_updDoor h

theorem writes_spendDraw {n : Nat} (h : Writes s t) : Writes s (spendDraw n t) := writes_ite h (writes_withFreeDraws h)

theorem writes_countPallet (h : Writes s t) : Writes s (countPallet d t) := by
  unfold countPallet
  split
  · exact h
  · exact writes_ite (writes_setDoorCause (writes_spendDraw (writes_updDoor h))) (writes_spendDraw (writes_updDoor h))

theorem writes_movedNotice (h : Writes s t) : Writes s (movedNotice pl t) := by
  cases pl with
  | atDoor d =>
    unfold movedNotice movedCount
    dsimp only
    split
    · exact h
    · exact writes_spendDraw (writes_updDoor h)
  | _ => exact h

theorem writes_dropThrough (h : Writes s t) (hc : dropThrough pl t = some u) : Writes s u := by
  cases pl with
  | atDoor d =>
    obtain ⟨-, rfl⟩ := Option.ite_some_none_eq_some.1 hc
    exact writes_countPallet h
  | _ =>
    cases hc
    exact h

/-! ## Orders and terminals (R48, R55 to R60) -/

theorem writes_finishOrder {out : Outcome} (h : Writes s t) : Writes s (finishOrder o out t) :=
  writes_withMds (writes_updOrder h) rfl
theorem writes_termIdle (h : Writes s t) : Writes s (termIdle i t) := writes_updTerminal h
theorem writes_requeueOrder (h : Writes s t) : Writes s (requeueOrder o t) := writes_updOrder h
theorem writes_refuse {why : RefuseReason} (h : Writes s t) : Writes s (refuse i why t) := writes_placeTerm h
theorem writes_accept {kind : TermReportKind} (h : Writes s t) : Writes s (accept i kind t) := writes_placeTerm h

theorem writes_grantOrder (h : Writes s t) : Writes s (grantOrder o i t) := by
  unfold grantOrder
  split
  · exact h
  next y _ =>
    refine writes_placeTerm (writes_updTerminal (writes_updOrder ?_))
    split
    next d _ =>
      cases hentry : useListEntry d o t with
      | none => exact h
      | some u => exact writes_useListEntry h hentry
    next => exact h

theorem writes_visitTerminal (h : Writes s t) : Writes s (visitTerminal i t) := by
  unfold visitTerminal
  split
  · exact writes_grantOrder h
  · refine writes_ite h ?_
    split
    · exact writes_grantOrder h
    · exact h

theorem writes_dispatchPass (h : Writes s t) : Writes s (dispatchPass t) :=
  writes_ite (writes_withMds (writes_forEach h fun _ _ => writes_visitTerminal) rfl) h

/-! ## Requeue and withdrawal (R68 to R71) -/

theorem writes_requeueAndRevoke (h : Writes s t) : Writes s (requeueAndRevoke o t) := by
  unfold requeueAndRevoke
  split
  · refine writes_ite ?_ h
    split
    · exact writes_placeTerm (writes_termIdle (writes_requeueOrder (writes_leaveUseList h)))
    · exact writes_requeueOrder (writes_leaveUseList h)
  · exact h

theorem writes_departureNotice {removed : List OrderId} (h : Writes s t) : Writes s (departureNotice removed t) :=
  writes_dispatchPass (writes_forEach h fun _ _ => writes_requeueAndRevoke)

theorem writes_withdrawOrder {out : Outcome} (h : Writes s t) : Writes s (withdrawOrder out o t) := by
  unfold withdrawOrder
  split
  · exact h
  · refine writes_ite (writes_dispatchPass (writes_finishOrder (writes_unbindClaim (writes_releaseClaim (writes_ite ?_ h))))) h
    split
    · exact writes_placeTerm (writes_termIdle (writes_leaveUseList h))
    · exact writes_leaveUseList h

theorem writes_holdNotice (h : Writes s t) : Writes s (holdNotice x t) := by
  unfold holdNotice
  split
  · exact h
  · split
    · exact writes_ite (writes_withdrawOrder h) h
    · exact h

theorem writes_sessionNotice (h : Writes s t) : Writes s (sessionNotice d t) := writes_forEach h fun _ _ => writes_withdrawOrder

theorem writes_withdrawTrailerGone (h : Writes s t) : Writes s (withdrawTrailerGone d t) :=
  writes_forEach h fun _ _ => writes_withdrawOrder

/-! ## Terminals lost and heard again, modes and restart (R72, R73, R76) -/

theorem writes_terminalLost (h : Writes s t) : Writes s (terminalLost i t) := by
  unfold terminalLost
  split
  · exact writes_updTerminal h
  · exact writes_dispatchPass (writes_updTerminal (writes_requeueOrder (writes_leaveUseList h)))
  · exact writes_updTerminal h
  · exact writes_updTerminal h
  · exact h

theorem writes_terminalHeard (h : Writes s t) : Writes s (terminalHeard i t) := by
  unfold terminalHeard
  refine writes_ite h ?_
  split
  · refine writes_dispatchPass ?_
    split
    · exact writes_placeTerm (writes_updTerminal (writes_termIdle h))
    · exact writes_termIdle h
  · dsimp only
    split
    · exact writes_placeTerm (writes_updTerminal h)
    · exact writes_updTerminal h

theorem writes_requeueWithRevokeDue (h : Writes s t) : Writes s (requeueWithRevokeDue o t) := by
  unfold requeueWithRevokeDue
  split
  · refine writes_ite ?_ h
    split
    · exact writes_updTerminal (writes_termIdle (writes_requeueOrder (writes_leaveUseList h)))
    · exact writes_requeueOrder (writes_leaveUseList h)
  · exact h

theorem writes_terminalsOffline (h : Writes s t) : Writes s (terminalsOffline t) := writes_forEach h fun _ _ => writes_updTerminal

theorem writes_mdsNotice {left entered : Mode} (h : Writes s t) : Writes s (mdsNotice left entered t) := by
  have hrequeued : Writes s (if left = .run then
      t.forEach (t.ordersIn .granted) (if entered = .retain then requeueWithRevokeDue else requeueAndRevoke) else t) := by
    refine writes_ite (writes_forEach h fun _ _ h => ?_) h
    split
    · exact writes_requeueWithRevokeDue h
    · exact writes_requeueAndRevoke h
  cases entered with
  | retain | standby => exact writes_terminalsOffline hrequeued
  | run => exact writes_dispatchPass hrequeued
  | checking | holdover => exact hrequeued

/-! ## Creation and redirect (R51 to R53, R74) -/

theorem writes_createOrder {n : Nat} {origin : Place} {dest : Dest} {prio : Priority} (h : Writes s t)
    (hc : createOrder n x origin dest prio t = .ok (o, pl, u)) : Writes s u := by
  unfold createOrder at hc
  dsimp only at hc
  split at hc
  · cases hc
  next hreserve =>
    split at hc
    · cases hc
    next hbind =>
      cases hc
      exact writes_withMds (writes_setOrderEntry (writes_bindClaim (writes_reserveClaim h hreserve) hbind)) rfl

theorem writes_tryMove {dest : Option Dest} {prio : Priority} (h : Writes s t) (hm : tryMove x dest prio t = .ok (o, pl, u)) :
    Writes s u := by
  unfold tryMove at hm
  repeat' split at hm
  case h_2 => exact writes_createOrder h hm
  all_goals cases hm

theorem writes_batchElements {a b : Option Dest} {prio : Priority} {xs : List (Handle × Bool)} (h : Writes s t) :
    Writes s (batchElements a b prio xs t).2 := by
  induction xs generalizing t with
  | nil => exact h
  | cons x xs ih =>
    unfold batchElements
    split
    next hmove => exact ih (writes_tryMove h hmove)
    next => exact h
    next => exact ih h

theorem writes_tryRedirect {y : Order} {dest : Dest} (h : Writes s t) (hr : tryRedirect o y dest t = .ok (pl, u)) : Writes s u := by
  unfold tryRedirect at hr
  repeat' split at hr
  all_goals cases hr
  next hreserve => exact writes_updOrder (writes_releaseClaim (writes_reserveClaim h hreserve))

/-- R74: a redirect's new use-list entry, if there is one. -/
theorem writes_reroute {route old : Option (Fin 24)} (h : Writes s t)
    (hc : (if route = old then some t
      else match route with
        | some d => useListEntry d o (leaveUseList old o t)
        | none => some (leaveUseList old o t)) = some u) : Writes s u := by
  split at hc
  · cases hc
    exact h
  · split at hc
    · exact writes_useListEntry (writes_leaveUseList h) hc
    · cases hc
      exact writes_leaveUseList h

theorem writes_afterRedirect {y : Order} (h : Writes s t) : Writes s (afterRedirect o y pl t) := by
  unfold afterRedirect
  cases y.state with
  | queued => exact writes_dispatchPass h
  | granted =>
    have hrequeued : Writes s (requeueOrder o (leaveUseList y.routeDoor o t)) := writes_requeueOrder (writes_leaveUseList h)
    dsimp only
    split
    next hroute _ => exact writes_placeTerm (writes_reroute h hroute)
    next hroute _ => exact writes_reroute h hroute
    next => exact writes_dispatchPass (writes_placeTerm (writes_termIdle hrequeued))
    next => exact writes_dispatchPass hrequeued
  | carrying =>
    have hrouted : Writes s (if routeDoor y.origin pl = y.routeDoor then t else leaveUseList y.routeDoor o t) :=
      writes_ite h (writes_leaveUseList h)
    dsimp only
    split
    · exact writes_ite (writes_placeTerm hrouted) hrouted
    · exact hrouted
  | finished => exact h

/-! ## Charges (R36, R42, R43, R115 to R117) -/

theorem writes_budgetRule (h : Writes s t) : Writes s (budgetRule x t) := by
  unfold budgetRule
  split
  · exact h
  · exact writes_ite (writes_holdNotice (writes_raiseAlarm (writes_updPallet h fun _ => id))) h

/-- R42: an exposure saturates. -/
theorem writes_chargePallet {n : Nat} (h : Writes s t) : Writes s (chargePallet x n t) :=
  writes_ite h (writes_budgetRule (writes_updPallet h fun _ _ => min_le_left _ _))

theorem writes_chargeClaim {table : Vector (Option Temp) 8} (h : Writes s t) : Writes s (chargeClaim table t) := by
  refine writes_forEach h fun x u hu => ?_
  split
  · exact writes_chargePallet hu
  · exact hu

theorem writes_gapClaim {minutes : Nat} (h : Writes s t) : Writes s (gapClaim minutes t) := by
  refine writes_forEach h fun x u hu => ?_
  split
  · exact writes_ite (writes_chargePallet hu) hu
  · exact hu

theorem writes_accrualExpiry (h : Writes s t) : Writes s (accrualExpiry t) := writes_withTsu (writes_chargeClaim h)

theorem writes_gapRule (h : Writes s t) : Writes s (gapRule t) :=
  writes_ite (writes_withTsu h) (writes_ite h (writes_withTsu (writes_gapClaim h)))

theorem writes_tsuNotice {left entered : Mode} (h : Writes s t) : Writes s (tsuNotice left entered t) := by
  cases entered with
  | standby | retain => exact writes_evaluateAll (writes_modeSilence (writes_withTsu h))
  | checking => exact writes_evaluateAll (writes_withTsu h)
  | holdover => exact writes_evaluateAll h
  | run => exact writes_evaluateAll (writes_ite (writes_gapRule h) (writes_withTsu (writes_gapRule h)))

theorem writes_reevaluateClass {c : Fin 16} (h : Writes s t) : Writes s (reevaluateClass c t).2 :=
  writes_forEach h fun _ _ => writes_budgetRule

end
end Sys2Proof.Machine
end

section
/-! SUPPORT. The writes of DKC's doors, of the lanes and their reports, and of the changes of mode and the resets (R62 to R67, R79 to
R102, R160 to R170, R184 to R195). -/

namespace Sys2Proof.Machine

section
variable {s t u : State} {d : Fin 24} {r : Fin 8} {i : Fin 16} {o : OrderId} {st : StationId} {l : Lane} {order : List Block}

/-! ## Doors (R89 to R94, R102) -/

theorem writes_doorEnter {ds : DoorState} (h : Writes s t) : Writes s (doorEnter d ds t) := writes_setDoorCause (writes_updDoor h)

theorem writes_doorOutcome {out : DoorOutcome} (h : Writes s t) : Writes s (doorOutcome d out t) :=
  writes_setDoorCause (writes_updDoor h)

theorem writes_doorLeaveTo {ds : DoorState} {notify : Bool} (h : Writes s t) : Writes s (doorLeaveTo d ds notify t) := by
  have hentered : Writes s (doorEnter d ds t) := writes_doorEnter h
  have hdeparted : Writes s (clearAlarm .doorOpenLong (.door d) ((doorEnter d ds t).updDoor d (Door.departed t.now))) :=
    writes_clearAlarm (writes_updDoor hentered)
  exact writes_ite (writes_ite (writes_departureNotice hdeparted) hdeparted) hentered

theorem writes_reevaluateIfClosed (h : Writes s t) : Writes s (reevaluateIfClosed d t) := writes_ite h (writes_reevaluateHold h)

theorem writes_enterFault {code : FaultCode} (h : Writes s t) : Writes s (enterFault d code t) := by
  have hstopped : Writes s (placeDoor d .stop (doorLeaveTo d .fault true (t.updDoor d fun x => { x with fault := some code }))) :=
    writes_placeDoor (writes_doorLeaveTo (writes_updDoor h))
  exact writes_reevaluateIfClosed (writes_ite (writes_raiseAlarm (writes_raiseAlarm hstopped)) (writes_raiseAlarm hstopped))

theorem writes_trailerGone (h : Writes s t) : Writes s (trailerGone d t) :=
  writes_clearAlarm (writes_doorOutcome (writes_doorEnter (writes_updDoor (writes_retireDoorSet (writes_withdrawTrailerGone h)))))

theorem writes_confirmSeal (h : Writes s t) : Writes s (confirmSeal d t) := writes_clearAlarm (writes_updDoor h)

theorem writes_resolveDoor (h : Writes s t) : Writes s (resolveDoor d t) :=
  writes_ite (writes_trailerGone h) (writes_ite (writes_confirmSeal (writes_doorEnter h))
    (writes_ite (writes_placeDoor (writes_doorEnter h)) (writes_doorEnter h)))

theorem writes_clearDoorFault (h : Writes s t) : Writes s (clearDoorFault d t) := by
  have hcleared : Writes s (clearAlarm .trailerLost (.door d) (clearAlarm .doorFault (.door d)
      (resolveDoor d (t.updDoor d fun x => { x with fault := none })))) :=
    writes_clearAlarm (writes_clearAlarm (writes_resolveDoor (writes_updDoor h)))
  exact writes_reevaluateIfClosed (writes_ite hcleared (writes_doorOutcome hcleared))

theorem writes_enterOpen (h : Writes s t) : Writes s (enterOpen d t) := writes_dispatchPass (writes_updDoor (writes_doorEnter h))

theorem writes_doorOffline (h : Writes s t) : Writes s (doorOffline d t) :=
  writes_ite h (writes_placeDoor (writes_doorLeaveTo (writes_updDoor h)))

theorem writes_unsealComplete (h : Writes s t) : Writes s (unsealComplete d t) := by
  have hwithdrawn : Writes s (withdrawTrailerGone d t) := writes_withdrawTrailerGone h
  unfold unsealComplete
  split
  · exact writes_doorOutcome (writes_doorEnter (writes_updDoor (writes_retireDoorSet hwithdrawn)))
  · exact writes_doorOutcome (writes_doorEnter (writes_updDoor hwithdrawn))

theorem writes_doorReportEffect (h : Writes s t) : Writes s (doorReportEffect d t) :=
  writes_ite (writes_enterFault h) <|
  writes_ite (writes_trailerGone h) <|
  writes_ite (writes_enterFault h) <|
  writes_ite (writes_confirmSeal (writes_doorOutcome (writes_doorEnter h))) <|
  writes_ite (writes_unsealComplete h) <|
  writes_ite (writes_enterFault h) <|
  writes_ite (writes_enterFault h) <|
  writes_ite (writes_enterFault h) <|
  writes_ite (writes_enterOpen (writes_doorOutcome h)) <|
  writes_ite (writes_reevaluateHold (writes_updDoor (writes_doorOutcome (writes_doorEnter h)))) <|
  writes_ite (writes_doorEnter h) h

theorem writes_reconcileDoor (h : Writes s t) : Writes s (reconcileDoor d t) := by
  have hforgotten : Writes s (t.updDoor d fun x => { x with remembered := none }) := writes_updDoor h
  refine writes_ite (writes_enterFault hforgotten) (writes_reevaluateIfClosed ?_)
  split
  · exact writes_enterOpen hforgotten
  · exact writes_doorEnter hforgotten
  · exact writes_doorReportEffect (writes_ite (writes_placeDoor (writes_doorEnter hforgotten)) (writes_doorEnter hforgotten))
  · exact writes_doorReportEffect (writes_doorEnter hforgotten)
  · exact writes_doorEnter hforgotten
  · exact writes_resolveDoor hforgotten

theorem writes_takeDoorReport {rep : DoorReport} (h : Writes s t) : Writes s (takeDoorReport d rep t) := by
  have hstored : Writes s (t.updDoor d fun x => { x with last := rep }) := writes_updDoor h
  unfold takeDoorReport
  split
  · exact writes_reconcileDoor hstored
  · exact writes_ite hstored (writes_reevaluateHold hstored)
  · exact writes_doorReportEffect hstored

theorem writes_dkcNotice {entered : Mode} (h : Writes s t) : Writes s (dkcNotice entered t) := by
  cases entered with
  | standby | holdover | retain => exact writes_forEach h fun _ _ h => writes_ite (writes_doorOffline h) h
  | checking | run => exact h

theorem writes_doorRestart (h : Writes s t) : Writes s (doorRestart d t) := by
  have hrestarted : Writes s (t.updDoor d (Door.restarted t.now)) := writes_updDoor h
  have hnoted := writes_ite (c := (t.door d).restarts = true) (writes_setDoorCause (d := d) hrestarted) hrestarted
  have hdeparted := writes_ite (c := ((t.door d).restarts && decide ((t.door d).state = .opened)) = true)
    (writes_clearAlarm (k := .doorOpenLong) (sub := .door d) hnoted) hnoted
  exact writes_ite (writes_placeDoor hdeparted) hdeparted

theorem writes_dkcWarmRestart (h : Writes s t) : Writes s (dkcWarmRestart t) := writes_forEach h fun _ _ => writes_doorRestart

/-! ## Terminal reports (R62 to R67) -/

theorem writes_takePicked {tag : Tag} {place : Nat} (h : Writes s t) : Writes s (takePicked i tag place t) := by
  unfold takePicked
  split
  · exact writes_refuse h
  split
  · exact writes_refuse h
  refine writes_ite (writes_refuse h) ?_
  split
  · exact writes_refuse h
  next hvacate => exact writes_accept (writes_updTerminal (writes_updOrder (writes_pickClaim (writes_vacateClaim h hvacate))))

theorem writes_completeDrop {x : Order} (h : Writes s t) : Writes s (completeDrop i o x t) :=
  writes_dispatchPass (writes_forEach (writes_movedNotice (writes_leaveUseList
    (writes_accept (writes_termIdle (writes_finishOrder (writes_dropClaim h)))))) fun _ _ => writes_portalPassage)

theorem writes_takeDropped {place : Nat} (h : Writes s t) : Writes s (takeDropped i place t) := by
  unfold takeDropped
  split
  · exact writes_refuse h
  split
  · exact writes_refuse h
  refine writes_ite (writes_refuse h) (writes_ite (writes_refuse h) ?_)
  split
  · exact writes_refuse h
  next hthrough =>
    split
    · exact writes_refuse h
    next hcommit => exact writes_completeDrop (writes_commitClaim (writes_dropThrough h hthrough) hcommit)

theorem writes_abandonOrder {x : Order} {room : Nat} {out : Outcome} (h : Writes s t) (ha : abandonOrder o x room out t = some u) :
    Writes s u := by
  unfold abandonOrder at ha
  repeat' split at ha
  all_goals cases ha
  next hoccupy =>
    exact writes_finishOrder (writes_leaveUseList (writes_abandonClaim (writes_releaseClaim (writes_occupyClaim h hoccupy))))

theorem writes_takeAbandon {room : Nat} (h : Writes s t) : Writes s (takeAbandon i room t) := by
  unfold takeAbandon
  split
  · exact writes_refuse h
  split
  · exact writes_refuse h
  split
  · exact writes_refuse h
  next habandon => exact writes_dispatchPass (writes_accept (writes_termIdle (writes_abandonOrder h habandon)))

theorem writes_trySubmit {tag : Tag} (h : Writes s t) (hs : trySubmit i tag t = .ok (o, u)) : Writes s u := by
  unfold trySubmit at hs
  repeat' split at hs
  all_goals cases hs
  next hcreate => exact writes_createOrder h hcreate

theorem writes_takeSubmit {tag : Tag} (h : Writes s t) : Writes s (takeSubmit i tag t) := by
  unfold takeSubmit
  split
  · exact writes_refuse h
  next hsubmit => exact writes_dispatchPass (writes_placeTerm (writes_trySubmit h hsubmit))

theorem writes_takeReady {full : Bool} (h : Writes s t) : Writes s (takeReady i full t) :=
  writes_ite (writes_ite (writes_dispatchPass (writes_updTerminal h)) (writes_updTerminal h)) h

theorem writes_takeTerminalReport {rep : Report} (h : Writes s t) : Writes s (takeTerminalReport i rep t) := by
  have hheard : Writes s (terminalHeard i t) := writes_terminalHeard h
  cases rep with
  | picked => exact writes_takePicked hheard
  | dropped => exact writes_takeDropped hheard
  | abandon => exact writes_takeAbandon hheard
  | submit => exact writes_takeSubmit hheard
  | ready => exact writes_takeReady hheard
  | door | probes | controller => exact h

/-! ## Owners and lanes (R160 to R170) -/

theorem writes_ownerLost (h : Writes s t) : Writes s (ownerLost st t) := by
  cases st with
  | door d => exact writes_doorOffline h
  | hub r => exact writes_hubLost h
  | evap e => exact writes_controllerLost h
  | term i => exact writes_terminalLost h

theorem writes_ownerHeard (h : Writes s t) : Writes s (ownerHeard st t) := by
  cases st with
  | door | hub => exact h
  | evap e => exact writes_controllerHeard h
  | term i => exact writes_terminalHeard h

theorem writes_takeReport {fresh : Bool} {rep : Report} (h : Writes s t) : Writes s (takeReport st fresh rep t) := by
  unfold takeReport
  split
  · exact writes_takeDoorReport h
  · exact writes_takeProbeReport h
  · exact writes_takeControllerReport h
  · exact writes_takeTerminalReport h
  · exact h

theorem writes_nextPoll (h : Writes s t) : Writes s (nextPoll l t) := by
  unfold nextPoll
  split
  · exact writes_updLane (writes_updStation h)
  · exact writes_updLane h

theorem writes_beginRound (h : Writes s t) : Writes s (beginRound l t) := writes_nextPoll (writes_updLane h)

theorem writes_pollEnded (h : Writes s t) : Writes s (pollEnded l t) :=
  writes_ite (writes_beginRound (writes_updLane (writes_nextPoll h))) (writes_nextPoll h)

theorem writes_roundExpiry (h : Writes s t) : Writes s (roundExpiry l t) :=
  writes_ite (writes_updLane (writes_updLane h)) (writes_beginRound (writes_updLane h))

theorem writes_heardAgain (h : Writes s t) : Writes s (heardAgain st t) :=
  writes_ownerHeard (writes_clearAlarm (writes_updStation h))

theorem writes_goodAnswer {rep : Report} (h : Writes s t) : Writes s (goodAnswer l st rep t) := by
  have hdelivered : Writes s (takeDelivery st t) := writes_updStation h
  exact writes_pollEnded (writes_takeReport (writes_ite hdelivered (writes_heardAgain hdelivered)))

theorem writes_declareLost (h : Writes s t) : Writes s (declareLost st t) := by
  have hlost : Writes s (ownerLost st (t.updStation st fun x => { x with link := .lost, missed := 3 })) :=
    writes_ownerLost (writes_updStation h)
  exact writes_ite hlost (writes_raiseAlarm hlost)

theorem writes_missPoll (h : Writes s t) : Writes s (missPoll l st t) :=
  writes_ite (writes_declareLost (writes_updStation h)) (writes_updStation h)

theorem writes_missedAnswer (h : Writes s t) : Writes s (missedAnswer l st t) := writes_pollEnded (writes_missPoll h)

theorem writes_stopLane (h : Writes s t) : Writes s (stopLane l t) :=
  writes_ite h (writes_forEach (writes_updLane h) fun _ _ => writes_updStation)

theorem writes_startLane (h : Writes s t) : Writes s (startLane l t) := writes_ite h (writes_beginRound (writes_updLane h))

theorem writes_startRollCall (h : Writes s t) : Writes s (startRollCall l t) := writes_beginRound (writes_updLane h)

theorem writes_lplNotice {entered : Mode} (h : Writes s t) : Writes s (lplNotice entered t) := by
  cases entered with
  | standby | retain => exact writes_forEach h fun _ _ => writes_stopLane
  | checking => exact h
  | run => exact writes_forEach h fun _ _ => writes_startLane
  | holdover => exact writes_startLane (writes_startLane (writes_stopLane (writes_stopLane h)))

/-! ## Modes, supply and the self-check (R184, R190 to R195) -/

theorem writes_blockNotice {left entered : Mode} {b : Block} (h : Writes s t) : Writes s (blockNotice left entered b t) := by
  cases b with
  | mds => exact writes_mdsNotice h
  | dkc => exact writes_dkcNotice h
  | tsu => exact writes_tsuNotice h
  | dfc => exact writes_dfcNotice h
  | lpl => exact writes_lplNotice h

theorem writes_enterMode {entered : Mode} (h : Writes s t) : Writes s (enterMode entered order t) := by
  have hentered : Writes s (setCause .supply (t.withMoc (t.moc.enter entered))) := writes_setCause (writes_withMoc h)
  exact writes_forEach (writes_ite (writes_clearAlarm hentered) hentered) fun _ _ => writes_blockNotice

theorem writes_setSelfCheck {c : SelfCheck} (h : Writes s t) : Writes s (setSelfCheck c t) :=
  writes_ite h (writes_setCause (writes_withMoc h))

theorem writes_selfCheckSupply (h : Writes s t) : Writes s (selfCheckSupply t) := writes_ite (writes_setSelfCheck h) h

theorem writes_raiseSupplyLoss (h : Writes s t) : Writes s (raiseSupplyLoss t) := writes_raiseAlarm h

theorem writes_recordLine {f : Moc → Moc} (h : Writes s t) : Writes s (recordLine f t) := writes_setCause (writes_withMoc h)

theorem writes_enterRetain (h : Writes s t) : Writes s (enterRetain order t) :=
  writes_ite h (writes_enterMode (writes_withMoc (writes_raiseSupplyLoss (writes_selfCheckSupply h))))

theorem writes_takeSupplyFail (h : Writes s t) : Writes s (takeSupplyFail order t) := by
  have hline : Writes s (recordLine (fun m => { m with supplyFail := true }) t) := writes_recordLine h
  refine writes_ite (writes_enterRetain hline) ?_
  split
  · exact writes_enterMode (writes_raiseSupplyLoss hline)
  · exact writes_enterMode (writes_raiseSupplyLoss (writes_selfCheckSupply hline))
  · exact writes_raiseSupplyLoss hline
  · exact hline

theorem writes_takeBatteryLow (h : Writes s t) : Writes s (takeBatteryLow order t) :=
  writes_ite (writes_enterRetain (writes_recordLine h)) (writes_recordLine h)

theorem writes_takeSupplyReturn (h : Writes s t) : Writes s (takeSupplyReturn order t) := by
  have hline : Writes s (recordLine (fun m => { m with supplyFail := false }) t) := writes_recordLine h
  unfold takeSupplyReturn
  dsimp only
  split
  · exact writes_enterMode hline
  · exact writes_ite (writes_enterMode (writes_withMoc hline)) (writes_enterMode (writes_withMoc hline))
  · exact hline

theorem writes_makeChecks (h : Writes s t) : Writes s (makeChecks order t) := by
  unfold makeChecks
  split
  · exact writes_enterMode (writes_setSelfCheck h)
  · exact writes_forEach (writes_withMoc h) fun _ _ => writes_startRollCall

theorem writes_rollCallPassed (h : Writes s t) : Writes s (rollCallPassed order t) :=
  writes_enterMode (writes_setSelfCheck (writes_withMoc h))

theorem writes_rollCallTimeout (h : Writes s t) : Writes s (rollCallTimeout order t) := writes_enterMode (writes_setSelfCheck h)

/-! ## Resets (R186, R187) -/

theorem writes_sampleLines {supplyFail batteryLow : Bool} (h : Writes s t) :
    Writes s (sampleLines supplyFail batteryLow order t) := by
  have hlow : Writes s (if batteryLow then takeBatteryLow order t else t) := writes_ite (writes_takeBatteryLow h) h
  exact writes_ite (writes_takeSupplyFail hlow) hlow

theorem writes_coldStart {strap : Strap} {supplyFail batteryLow : Bool} (h : Writes s t) :
    Writes s (coldStart strap supplyFail batteryLow order t) :=
  writes_sampleLines (h.tail (.coldStart t strap))

/-- R183: the link is empty after a warm restart. -/
theorem writes_lkpWarmRestart (h : Writes s t) : Writes s (lkpWarmRestart t) :=
  writes_withLkp h ⟨Nat.zero_le _, Nat.zero_le _, Nat.zero_le _, Nat.zero_le _⟩

theorem writes_warmRestart {supplyFail batteryLow : Bool} (h : Writes s t) :
    Writes s (warmRestart supplyFail batteryLow order t) := by
  have hmds : Writes s (mdsWarmRestart (mocWarmRestart (lplWarmRestart (lkpWarmRestart t)))) :=
    (writes_withMoc (writes_withLpl (writes_lkpWarmRestart h))).tail (.ordersRestart _)
  have hblocks : Writes s (warmRestartBlocks t) := writes_tsuWarmRestart (writes_dfcWarmRestart (writes_dkcWarmRestart hmds))
  exact writes_sampleLines (writes_ite (writes_setCause hblocks) hblocks)

theorem writes_tick (h : Writes s t) : Writes s t.tick := (writes_withMoc h).tail (.timeBase ..)

end
end Sys2Proof.Machine
end

section
/-! SUPPORT. The writes of an owner that accepts a request (R174), request by request. -/

namespace Sys2Proof.Machine

section
variable {args : List Byte} {s t u : State} {e : Fin 12} {d : Fin 24} {o : OrderId} {x : Handle}

/-! ## LKP, MOC and ALT -/

theorem keptBy_returnCause (c : Cause) (s : State) : KeptBy Writes s (returnCause c s) :=
  keptBy_done.2 (writes_clearCause (.refl s))

theorem keptBy_readAttentionReply : KeptBy Writes s (readAttentionReply args s) := by
  have top : KeptBy Writes s (returnTop s) := by
    unfold returnTop
    split
    · exact keptBy_returnCause ..
    · exact keptBy_done.2 (.refl s)
  unfold readAttentionReply
  split
  · refine keptBy_ite (fun _ => top) fun _ => ?_
    split
    · exact keptBy_returnCause ..
    · exact keptBy_error _
  · exact keptBy_error _

theorem keptBy_attentionMaskReply : KeptBy Writes s (attentionMaskReply args s) := by
  unfold attentionMaskReply
  split
  · exact keptBy_ite (fun _ => keptBy_error _) fun _ => keptBy_done.2 (writes_withLkp (.refl s) (.same rfl rfl rfl rfl))
  · exact keptBy_error _

/-- R182: the link is empty after LINK_RESET. -/
theorem keptBy_linkReset : KeptBy Writes s (linkReset s) :=
  keptBy_done.2 (writes_withLkp (.refl s) ⟨Nat.zero_le _, Nat.zero_le _, Nat.zero_le _, Nat.zero_le _⟩)

theorem writes_setClock {new : Time} (h : Writes s t) : Writes s (setClock new t) :=
  writes_withMoc (writes_withDkc (writes_mapEvaps (writes_withTsu h) fun _ => .same rfl rfl))

/-- R189: a new allowance is 1 to 4 and no less than its holders. -/
theorem writes_setAllowance {allowance : Option Nat} (h : Writes s t) (hrange : ¬(allowance.any fun n => n < 1 || 4 < n) = true)
    (hused : ¬(allowance.any fun n => n < t.allowanceUsed) = true) :
    Writes s (t.withDfc { t.dfc with allowance := allowance.getD t.dfc.allowance }) := by
  cases allowance with
  | none => exact h.tail (.dfc _ _ rfl fun _ => .same rfl rfl)
  | some n =>
    simp only [Option.any_some, Bool.or_eq_true, decide_eq_true_eq, not_or, Nat.not_lt] at hrange hused
    exact h.tail (.allowance _ n hrange hused)

theorem keptBy_siteSetReply : KeptBy Writes s (siteSetReply args s) := by
  unfold siteSetReply
  split
  · split
    next clock allowance _ _ =>
      refine keptBy_ite (fun _ => keptBy_error _) fun hrange => keptBy_ite (fun _ => keptBy_error _) fun hused => keptBy_done.2 ?_
      have hset := writes_setAllowance (.refl s) hrange hused
      cases clock with
      | none => exact hset
      | some c => exact writes_setClock hset
    next => exact keptBy_error _
  · exact keptBy_error _

theorem keptBy_startSite (order : List Block) (s : State) : KeptBy Writes s (startSite order s) :=
  keptBy_ite (fun _ => keptBy_error _) fun _ => keptBy_ite (fun _ => keptBy_error _) fun _ =>
    keptBy_started.2 (writes_enterMode (writes_setSelfCheck (writes_withMoc (.refl s))))

theorem keptBy_stopSite (order : List Block) (s : State) : KeptBy Writes s (stopSite order s) :=
  keptBy_ite (fun _ => keptBy_error _) fun _ => keptBy_ite (fun _ => keptBy_error _) fun _ =>
    keptBy_done.2 (writes_enterMode (writes_withMoc (.refl s)))

/-- R153: an acknowledgement keeps the pair and the count of every record it leaves. -/
theorem keepsPair_ackRecord : KeepsPair ackRecord := by
  intro r q hq
  unfold ackRecord at hq
  split at hq <;> cases hq
  all_goals exact ⟨rfl, rfl, rfl⟩

theorem keepsPair_ackPair (k : AlarmKind) (sub : Subject) : KeepsPair fun r => if r.isFor k sub then ackRecord r else some r := by
  intro r q hq
  dsimp only at hq
  split at hq
  · exact keepsPair_ackRecord r q hq
  · cases hq
    exact ⟨rfl, rfl, rfl⟩

theorem keptBy_alarmAckReply : KeptBy Writes s (alarmAckReply args s) := by
  have pair (k : AlarmKind) (sub : Subject) : KeptBy Writes s (ackPair k sub s) := by
    unfold ackPair
    split
    · exact keptBy_error _
    · refine keptBy_ite (fun _ => keptBy_error _) fun _ => keptBy_done.2 ?_
      exact (Writes.refl s).tail (.alarms _ _ (keepsPair_ackPair k sub))
  have all : KeptBy Writes s (ackAll s) := keptBy_done.2 ((Writes.refl s).tail (.alarms _ _ keepsPair_ackRecord))
  unfold alarmAckReply
  split
  · refine keptBy_ite (fun _ => all) fun _ => ?_
    split
    · exact pair ..
    · exact keptBy_error _
  · exact keptBy_error _

theorem keptBy_clearOverflow : KeptBy Writes s (clearOverflow s) := keptBy_done.2 ((Writes.refl s).tail (.unlisted _))

/-! ## PDR and CTB -/

theorem keptBy_roomSetReply : KeptBy Writes s (roomSetReply args s) := by
  have kindSet (r : Fin 8) (k : RoomKind) : Writes s (setRoomKind r k s) :=
    writes_evaluateRoom ((Writes.refl s).tail (.places _ _ rfl rfl))
  unfold roomSetReply
  split
  · split
    · refine keptBy_ite (fun _ => keptBy_done.2 (.refl s)) fun _ => ?_
      exact keptBy_ite (fun _ => keptBy_error _) fun _ => keptBy_done.2 (kindSet ..)
    · exact keptBy_error _
  · exact keptBy_error _

theorem keptBy_slotMapSetReply : KeptBy Writes s (slotMapSetReply args s) := by
  unfold slotMapSetReply
  split
  · refine keptBy_ite (fun _ => keptBy_error _) fun _ => keptBy_ite (fun _ => keptBy_error _) fun _ => keptBy_done.2 ?_
    exact (Writes.refl s).tail (.slotMap ..)
  · exact keptBy_error _

theorem keptBy_slotBlockReply : KeptBy Writes s (slotBlockReply args s) := by
  have blocked (n : Nat) (block : Bool) : KeptBy Writes s (blockSlot n block s) := by
    unfold blockSlot
    split
    · exact keptBy_ite (fun _ => keptBy_done.2 (writes_setSlot (.refl s))) fun _ => keptBy_error _
    · exact keptBy_ite (fun _ => keptBy_error _) fun _ => keptBy_done.2 (writes_setSlot (.refl s))
    · exact keptBy_error _
  unfold slotBlockReply
  split
  · split
    · exact blocked ..
    · exact keptBy_error _
  · exact keptBy_error _

theorem keptBy_classSetReply : KeptBy Writes s (classSetReply args s) := by
  have stored (c : Fin 16) (y : ClassRec) : Writes s (setClass c y s) := (Writes.refl s).tail (.classes ..)
  have accepted (c : Fin 16) (y : ClassRec) : KeptBy Writes s (storeClass c y s) := by
    refine keptBy_ite (fun _ => ?_) fun _ => keptBy_done.2 (writes_reevaluateClass (stored ..))
    exact keptBy_ite (fun _ => keptBy_error _) fun _ => keptBy_done.2 (stored ..)
  unfold classSetReply
  split
  · split
    · exact keptBy_ite (fun _ => accepted ..) fun _ => keptBy_error _
    · exact keptBy_error _
  · exact keptBy_error _

theorem keptBy_admitReply : KeptBy Writes s (admitReply args s) := by
  cases hreply : admitReply args s with
  | error => exact keptBy_error _
  | ok answer =>
    obtain ⟨i, tag, c, d, -, hu⟩ := admitReply_accepts hreply
    exact keptBy_ok.2 (hu ▸ writes_admitPallet (writes_countPallet (.refl s)))

theorem keptBy_holdSetReply : KeptBy Writes s (holdSetReply args s) := by
  have quality (x : Handle) : Writes s (setQuality x s) := writes_holdNotice (writes_updPallet (.refl s) fun _ => id)
  unfold holdSetReply
  split
  · dsimp only
    split
    · exact keptBy_error _
    · refine keptBy_ite (fun _ => keptBy_error _) fun _ => ?_
      exact keptBy_ite (fun _ => keptBy_error _) fun _ => keptBy_done.2 (quality _)
  · exact keptBy_error _

theorem keptBy_holdClearReply : KeptBy Writes s (holdClearReply args s) := by
  unfold holdClearReply
  split
  · dsimp only
    split
    · exact keptBy_error _
    · refine keptBy_ite (fun _ => ?_) fun _ => keptBy_ite (fun _ => keptBy_error _) fun _ => keptBy_error _
      exact keptBy_ite (fun _ => keptBy_done.2 (writes_updPallet (.refl s) fun _ => id)) fun _ => keptBy_error _
  · exact keptBy_error _

theorem keptBy_retire (x : Handle) (p : Pallet) : KeptBy Writes s (retire x p s) :=
  keptBy_ite (fun _ => keptBy_error _) fun _ => keptBy_done.2 (writes_retirePallet (.refl s))

theorem writes_correctPlace {p : Pallet} {new : Place} (h : Writes s t) (hc : correctPlace x p new t = .ok u) : Writes s u := by
  unfold correctPlace at hc
  repeat' split at hc
  all_goals cases hc
  · exact h
  next hoccupy => exact writes_updPallet (writes_vacateClaim_getD (writes_occupyClaim h hoccupy)) fun _ => id

theorem writes_confirmPlace (h : Writes s t) : Writes s (confirmPlace x t) := writes_clearAlarm (writes_updPallet h fun _ => id)

theorem keptBy_placeCorrectReply : KeptBy Writes s (placeCorrectReply args s) := by
  unfold placeCorrectReply
  dsimp only
  repeat' split
  case h_2 hcorrect => exact keptBy_done.2 (writes_confirmPlace (writes_correctPlace (.refl s) hcorrect))
  all_goals exact keptBy_error _

/-! ## MDS -/

theorem keptBy_moveReply : KeptBy Writes s (moveReply args s) := by
  unfold moveReply
  repeat' split
  case h_2 hmove => exact keptBy_done.2 (writes_dispatchPass (writes_tryMove (.refl s) hmove))
  all_goals exact keptBy_error _

theorem keptBy_moveBatchReply : KeptBy Writes s (moveBatchReply args s) := by
  unfold moveBatchReply
  split
  · exact keptBy_error _
  · exact keptBy_done.2 (writes_dispatchPass (writes_batchElements (.refl s)))

theorem keptBy_cancelOrder (y : Order) (room : Option Nat) : KeptBy Writes s (cancelOrder o y room s) := by
  have carried (i : Fin 16) (n : Nat) : KeptBy Writes s (cancelCarried o y i n s) := by
    unfold cancelCarried
    split
    · exact keptBy_error _
    next habandon => exact keptBy_done.2 (writes_dispatchPass (writes_updTerminal (writes_abandonOrder (.refl s) habandon)))
  unfold cancelOrder
  cases y.state with
  | queued | granted => exact keptBy_done.2 (writes_withdrawOrder (.refl s))
  | finished => exact keptBy_error _
  | carrying =>
    dsimp only
    split
    · exact keptBy_ite (fun _ => carried ..) fun _ => keptBy_error _
    · exact keptBy_error _

theorem keptBy_moveCancelReply : KeptBy Writes s (moveCancelReply args s) := by
  unfold moveCancelReply
  dsimp only
  repeat' split
  case h_2 => exact keptBy_cancelOrder ..
  all_goals exact keptBy_error _

theorem keptBy_moveRedirectReply : KeptBy Writes s (moveRedirectReply args s) := by
  unfold moveRedirectReply
  dsimp only
  repeat' split
  case h_2 hredirect => exact keptBy_done.2 (writes_afterRedirect (writes_tryRedirect (.refl s) hredirect))
  all_goals exact keptBy_error _

theorem keptBy_moveCollect : KeptBy Writes s (moveCollect s) :=
  keptBy_done.2 (writes_forEach (writes_withMds (.refl s) rfl) fun _ _ => writes_setOrderEntry)

theorem writes_setHold {value : Bool} {ts : List (Fin 16)} (h : Writes s t) : Writes s (setHold value ts t) := by
  have hset : Writes s (t.forEach ts fun i s => s.updTerminal i fun x => { x with dispatchHold := value }) :=
    writes_forEach h fun _ _ => writes_updTerminal
  exact writes_ite hset (writes_dispatchPass hset)

theorem keptBy_dispatchHoldReply : KeptBy Writes s (dispatchHoldReply args s) := by
  unfold dispatchHoldReply
  split
  · split
    · exact keptBy_error _
    · refine keptBy_ite (fun _ => keptBy_done.2 (writes_ite (.refl s) (writes_setHold (.refl s)))) fun _ => ?_
      split
      · exact keptBy_error _
      · exact keptBy_ite (fun _ => keptBy_error _) fun _ => keptBy_done.2 (writes_setHold (.refl s))
  · exact keptBy_error _

theorem keptBy_terminalSetReply : KeptBy Writes s (terminalSetReply args s) := by
  unfold terminalSetReply
  split
  · split
    · refine keptBy_ite (fun _ => keptBy_error _) fun _ => keptBy_ite (fun _ => keptBy_error _) fun _ => keptBy_done.2 ?_
      exact writes_configuredChanged (writes_updTerminal (.refl s))
    · exact keptBy_error _
  · exact keptBy_error _

/-! ## DKC -/

theorem writes_setInService {inService : Bool} (h : Writes s t) : Writes s (setInService d inService t) := by
  refine writes_ite h (writes_configuredChanged (writes_ite ?_ (writes_doorEnter ?_)))
  all_goals exact writes_updDoor h

theorem writes_setDoor {room : Fin 8} {limit : Nat} {inService : Bool} (h : Writes s t) :
    Writes s (setDoor d room limit inService t) := by
  have hset : Writes s (setInService d inService (t.updDoor d fun x => { x with room := room, openLimit := limit })) :=
    writes_setInService (writes_updDoor h)
  exact writes_ite hset (writes_reevaluateHold (writes_reevaluateHold hset))

theorem keptBy_doorSetReply : KeptBy Writes s (doorSetReply args s) := by
  unfold doorSetReply
  split
  · split
    · refine keptBy_ite (fun _ => keptBy_error _) fun _ => ?_
      split
      · exact keptBy_error _
      · exact keptBy_done.2 (writes_setDoor (.refl s))
    · exact keptBy_error _
  · exact keptBy_error _

theorem writes_sealSession {ref : BitVec 32} {dir : Direction} {expected : Nat} (h : Writes s t) :
    Writes s (sealSession d ref dir expected t) := by
  unfold sealSession
  split
  · exact writes_ite (writes_sessionNotice (writes_updDoor h)) (writes_updDoor h)
  · exact writes_updDoor h

theorem keptBy_doorSealReply : KeptBy Writes s (doorSealReply args s) := by
  unfold doorSealReply
  split
  · split
    · refine keptBy_ite (fun _ => keptBy_error _) fun _ => keptBy_ite (fun _ => keptBy_error _) fun _ =>
        keptBy_ite (fun _ => keptBy_error _) fun _ => keptBy_started.2 ?_
      exact writes_placeDoor (writes_doorEnter (writes_sealSession (.refl s)))
    · exact keptBy_error _
  · exact keptBy_error _

theorem keptBy_openDoor (d : Fin 24) : KeptBy Writes s (openDoor d s) :=
  keptBy_ite (fun _ => keptBy_error _) fun _ => keptBy_ite (fun _ => keptBy_error _) fun _ =>
    keptBy_ite (fun _ => keptBy_error _) fun _ => keptBy_ite (fun _ => keptBy_error _) fun _ =>
      keptBy_started.2 (writes_placeDoor (writes_doorEnter (.refl s)))

theorem keptBy_doorCloseReply : KeptBy Writes s (doorCloseReply args s) := by
  unfold doorCloseReply
  split
  · split
    · refine keptBy_ite (fun _ => keptBy_error _) fun _ => keptBy_ite (fun _ => keptBy_error _) fun _ =>
        keptBy_ite (fun _ => keptBy_error _) fun _ => keptBy_started.2 ?_
      exact writes_placeDoor (writes_doorLeaveTo (.refl s))
    · exact keptBy_error _
  · exact keptBy_error _

theorem keptBy_releaseDoor (d : Fin 24) : KeptBy Writes s (releaseDoor d s) :=
  keptBy_ite (fun _ => keptBy_error _) fun _ => keptBy_ite (fun _ => keptBy_error _) fun _ =>
    keptBy_ite (fun _ => keptBy_error _) fun _ => keptBy_started.2 (writes_placeDoor (writes_doorEnter (.refl s)))

theorem keptBy_resolveFault (d : Fin 24) : KeptBy Writes s (resolveFault d s) :=
  keptBy_ite (fun _ => keptBy_error _) fun _ => keptBy_done.2 (writes_clearDoorFault (.refl s))

/-! ## TSU and DFC -/

theorem writes_setProbe {p : Fin 32} {fitted coilSide : Bool} (h : Writes s t) : Writes s (setProbe p fitted coilSide t) := by
  have hrefit : Writes s (t.updProbe p fun x => x.refit fitted coilSide) := writes_updProbe h
  exact writes_configuredChanged (writes_deriveRoom (writes_ite (writes_clearAlarm hrefit) hrefit))

theorem keptBy_probeSetReply : KeptBy Writes s (probeSetReply args s) := by
  unfold probeSetReply
  split
  · split
    · exact keptBy_done.2 (writes_setProbe (.refl s))
    · exact keptBy_error _
  · exact keptBy_error _

theorem keptBy_thermalSetReply : KeptBy Writes s (thermalSetReply args s) := by
  unfold thermalSetReply
  split
  · split
    · exact keptBy_ite (fun _ => keptBy_error _) fun _ => keptBy_done.2 (writes_updThermal (.refl s))
    · exact keptBy_error _
  · exact keptBy_error _

/-- R122: settings leave the frost load and the allowance, or take both away. -/
theorem configure_within (c : EvapConfig) (x : Evap) : x.Within (x.configure c) := by
  unfold Evap.configure
  split
  · exact .same rfl rfl
  · exact ⟨nofun, Nat.zero_le _⟩

theorem keptBy_evapSetReply : KeptBy Writes s (evapSetReply args s) := by
  unfold evapSetReply
  split
  · split
    · refine keptBy_ite (fun _ => keptBy_error _) fun _ => keptBy_ite (fun _ => keptBy_error _) fun _ => keptBy_done.2 ?_
      exact writes_configuredChanged (writes_updEvap (.refl s) (configure_within _))
    · exact keptBy_error _
  · exact keptBy_error _

theorem keptBy_onConfigured {k : Fin 12 → State → Reply} (h : KeptBy Writes s (k e s)) : KeptBy Writes s (onConfigured k e s) :=
  keptBy_ite (fun _ => h) fun _ => keptBy_error _

theorem keptBy_requestDefrost (e : Fin 12) : KeptBy Writes s (requestDefrost e s) :=
  keptBy_ite (fun _ => keptBy_started.2 (writes_raiseDemand (.refl s))) fun _ => keptBy_error _

theorem keptBy_abortDefrost (e : Fin 12) : KeptBy Writes s (abortDefrost e s) := by
  have hidle : Writes s (abortToIdle e s) := writes_updEvap (writes_enterPhase (.refl s)) fun _ => .same rfl rfl
  unfold abortDefrost
  split
  · exact keptBy_done.2 (writes_clearAlarm hidle)
  · refine keptBy_done.2 (writes_allowancePass (writes_clearAlarm ?_))
    exact writes_updEvap (writes_releaseAllowance hidle) fun _ => .same rfl rfl
  · exact keptBy_done.2 (writes_clearAlarm (writes_enterDrip (.refl s)))
  · exact keptBy_done.2 (writes_clearAlarm (writes_enterDrip (.refl s)))
  · exact keptBy_error _

theorem writes_releaseFault (h : Writes s t) : Writes s (releaseFault e t) := by
  refine writes_placeEvap (writes_updEvap ?_ fun _ => .same rfl rfl)
  exact writes_clearAlarm (writes_clearAlarm (writes_releaseAllowance (writes_enterPhase h)))

theorem keptBy_releaseEvap (e : Fin 12) : KeptBy Writes s (releaseEvap e s) :=
  keptBy_ite (fun _ => keptBy_done.2 (writes_allowancePass (writes_releaseFault (.refl s)))) fun _ => keptBy_error _

/-! ## The reads

A read answers or refuses, and its owner changes nothing. -/

theorem keptBy_slotReadReply : KeptBy Writes s (slotReadReply args s) := by
  unfold slotReadReply
  repeat' split
  all_goals simp [Writes.refl]

theorem keptBy_findTagReply : KeptBy Writes s (findTagReply args s) := by
  unfold findTagReply
  dsimp only
  repeat' split
  all_goals simp [Writes.refl]

theorem keptBy_censusReply : KeptBy Writes s (censusReply args s) := by
  unfold censusReply
  repeat' split
  all_goals simp [Writes.refl]

theorem keptBy_moveReadReply : KeptBy Writes s (moveReadReply args s) := by
  unfold moveReadReply
  repeat' split
  all_goals simp [Writes.refl]

theorem keptBy_alarmListReply : KeptBy Writes s (alarmListReply args s) := by
  unfold alarmListReply
  repeat' split
  all_goals simp [Writes.refl]

theorem keptBy_alarmReadReply : KeptBy Writes s (alarmReadReply args s) := by
  unfold alarmReadReply readAlarm
  repeat' split
  all_goals simp [Writes.refl]

end

/-! ## Every owner -/

/-- Whatever a request's owner changes, it changes by writes. -/
theorem keptBy_ownerReply (c : Instr) (args : List Byte) (s : State) : KeptBy Writes s (ownerReply c args s) := by
  cases c
  all_goals simp only [ownerReply]
  case readIdent | readMode => exact keptBy_noArgs (by simp [Writes.refl]) args
  case readAttention => exact keptBy_readAttentionReply
  case attentionMask => exact keptBy_attentionMaskReply
  case siteSet => exact keptBy_siteSetReply
  case startSite order => exact keptBy_noArgs (keptBy_startSite order s) args
  case stopSite order => exact keptBy_noArgs (keptBy_stopSite order s) args
  case linkReset => exact keptBy_noArgs keptBy_linkReset args
  case roomSet => exact keptBy_roomSetReply
  case slotMapSet => exact keptBy_slotMapSetReply
  case roomRead | roomCount | laneRead | terminalRead | doorRead | roomTempRead | probeRead | evapRead =>
    exact keptBy_oneFin (by simp [Writes.refl]) args
  case slotRead => exact keptBy_slotReadReply
  case slotBlock => exact keptBy_slotBlockReply
  case classSet => exact keptBy_classSetReply
  case admission => exact keptBy_admitReply
  case findTag => exact keptBy_findTagReply
  case palletRead => exact keptBy_oneHandle (by simp [Writes.refl]) args
  case census => exact keptBy_censusReply
  case holdSet => exact keptBy_holdSetReply
  case holdClear => exact keptBy_holdClearReply
  case retire => exact keptBy_oneHandle keptBy_retire args
  case placeCorrect => exact keptBy_placeCorrectReply
  case move => exact keptBy_moveReply
  case moveBatch => exact keptBy_moveBatchReply
  case moveCancel => exact keptBy_moveCancelReply
  case moveRedirect => exact keptBy_moveRedirectReply
  case moveRead => exact keptBy_moveReadReply
  case moveCollect => exact keptBy_noArgs keptBy_moveCollect args
  case dispatchHold => exact keptBy_dispatchHoldReply
  case terminalSet => exact keptBy_terminalSetReply
  case doorSet => exact keptBy_doorSetReply
  case doorSeal => exact keptBy_doorSealReply
  case doorOpen => exact keptBy_oneFin keptBy_openDoor args
  case doorClose => exact keptBy_doorCloseReply
  case doorRelease => exact keptBy_oneFin keptBy_releaseDoor args
  case doorClearFault => exact keptBy_oneFin keptBy_resolveFault args
  case probeSet => exact keptBy_probeSetReply
  case thermalSet => exact keptBy_thermalSetReply
  case evapSet => exact keptBy_evapSetReply
  case defrostRequest => exact keptBy_oneFin (fun e => keptBy_onConfigured (keptBy_requestDefrost e)) args
  case defrostAbort => exact keptBy_oneFin (fun e => keptBy_onConfigured (keptBy_abortDefrost e)) args
  case evapRelease => exact keptBy_oneFin (fun e => keptBy_onConfigured (keptBy_releaseEvap e)) args
  case alarmList => exact keptBy_alarmListReply
  case alarmAck => exact keptBy_alarmAckReply
  case alarmRead => exact keptBy_alarmReadReply
  case alarmOverflowClear => exact keptBy_noArgs keptBy_clearOverflow args
  all_goals exact keptBy_error _

end Sys2Proof.Machine
end

section
/-! SUPPORT. Every command is made of writes and at most one frame queued, so a property that these keep is kept by every step. -/

namespace Sys2Proof.Machine

/-! ## The link (R171 to R174) -/

section
variable {s t u : State}

/-- No write lengthens the answer queue. -/
theorem ready_of_write (h : Write s t) (hs : s.ready = true) : t.ready = true := by
  cases h with
  | lkp b hwithin => exact decide_eq_true (hwithin.answers.trans_lt (of_decide_eq_true hs))
  | coldStart => rfl
  | _ => exact hs

theorem Writes.ready (h : Writes s t) (hs : s.ready = true) : t.ready = true := h.keeps (fun _ _ => ready_of_write) hs

theorem writes_takeHead {f : RequestFrame} (h : s.takeHead = some (f, t)) : Writes s t := by
  unfold State.takeHead at h
  split at h
  next hurgent =>
    cases h
    exact writes_withLkp (.refl s) ⟨by simp [hurgent], le_rfl, le_rfl, le_max_right _ _⟩
  next =>
    split at h
    next hnormal =>
      cases h
      exact writes_withLkp (.refl s) ⟨le_rfl, by simp [hnormal], le_rfl, le_max_right _ _⟩
    next => cases h

theorem writes_beginExchange (s : State) : Writes s (beginExchange s) := writes_withLkp (.refl s) (.same rfl rfl rfl rfl)

theorem writes_deliver (x : Exchange) (bytes : Nat) (s : State) : Writes s (deliver x bytes s) := by
  refine writes_withLkp (.refl s) ⟨le_rfl, le_rfl, ?_, le_max_right _ _⟩
  dsimp only
  split
  · simp
  · exact le_rfl

theorem runs_pushAnswer {f : RequestFrame} {rc : ResultCode} {results : List Byte} (h : Writes s t) (hready : t.ready = true) :
    Runs s (pushAnswer f rc results t) :=
  ⟨t, _, h, .answer t f rc results hready, .refl _⟩

/-- R172: a good frame joins its queue where that has a place, and is answered or discarded where it has none. -/
theorem runs_queueFrame (urgent : Bool) (f : RequestFrame) (s : State) : Runs s (queueFrame urgent f s) := by
  have hfull (hlong : if urgent then 8 ≤ s.lkp.urgent.length else 24 ≤ s.lkp.normal.length) : Runs s (queueFrame urgent f s) := by
    rw [queueFrame_full hlong]
    split
    next hplace => exact runs_pushAnswer (.refl s) (decide_eq_true hplace)
    next => exact (writes_discardFrame (.refl s)).runs
  cases urgent with
  | true =>
    rcases Nat.lt_or_ge s.lkp.urgent.length 8 with hroom | hlong
    · rw [queueFrame_urgent hroom]
      exact ⟨s, _, .refl s, .urgent s f hroom, .refl _⟩
    · exact hfull hlong
  | false =>
    rcases Nat.lt_or_ge s.lkp.normal.length 24 with hroom | hlong
    · rw [queueFrame_normal hroom]
      exact ⟨s, _, .refl s, .normal s f hroom, .refl _⟩
    · exact hfull hlong

theorem runs_judgeReceived (ready : Bool) (received : List Byte) (s : State) : Runs s (judgeReceived ready received s) := by
  have hdiscard (b : Bool) : Runs s (discardFrame b s) := (writes_discardFrame (.refl s)).runs
  unfold judgeReceived
  split
  · exact (Writes.refl s).runs
  · exact runs_ite (hdiscard _) (hdiscard _)
  · exact runs_ite (runs_queueFrame ..) (hdiscard _)

theorem runs_endExchange (received : List Byte) (s : State) : Runs s (endExchange received s) := by
  unfold endExchange
  split
  · exact (Writes.refl s).runs
  · exact (writes_deliver ..).then_runs (runs_judgeReceived ..)

theorem runs_handOffUnknown (s : State) : Runs s (handOffUnknown s) := by
  unfold handOffUnknown
  split
  next hhead =>
    split
    next hnext => exact runs_pushAnswer (writes_takeHead hhead) ((writes_takeHead hhead).ready hnext.1)
    next => exact (Writes.refl s).runs
  next => exact (Writes.refl s).runs

/-- R174: without a place for the answer no request is handed off. -/
theorem handOff_of_not_ready {code : Byte} {k : List Byte → State → Reply} (h : ¬s.ready = true) : handOff code k s = s := by
  unfold handOff
  split
  · exact if_neg fun hnext => h hnext.1
  · rfl

/-- R174: a request leaves its queue, its owner writes, and the answer finds its place still free. -/
theorem runs_handOff {code : Byte} {k : List Byte → State → Reply} (hk : ∀ args s, KeptBy Writes s (k args s)) (s : State) :
    Runs s (handOff code k s) := by
  by_cases hready : s.ready = true
  · rcases handOff_cases code k s with hidle | ⟨f, t, hhead, ⟨rc, hrefused⟩ | ⟨rc, results, u, hreply, hdone⟩⟩
    · rw [hidle]
      exact (Writes.refl s).runs
    · rw [hrefused]
      exact runs_pushAnswer (writes_takeHead hhead) ((writes_takeHead hhead).ready hready)
    · have howner : Writes t u := by simpa [hreply] using hk f.args t
      have hwrites : Writes s u := (writes_takeHead hhead).trans howner
      rw [hdone]
      exact (runs_pushAnswer hwrites (hwrites.ready hready)).then_writes (writes_settle (.refl _))
  · rw [handOff_of_not_ready hready]
    exact (Writes.refl s).runs

/-! ## Every command -/

theorem writes_reportRow (l : Lane) (ofRow : Report → Bool) (received : List Byte) (s : State) :
    Writes s (reportRow l ofRow received s) := by
  unfold reportRow
  split
  · exact writes_ite (writes_settle (writes_goodAnswer (.refl s))) (.refl s)
  · exact .refl s

theorem writes_missedRow (l : Lane) (received : List Byte) (s : State) : Writes s (missedRow l received s) := by
  unfold missedRow
  split
  · exact writes_settle (writes_missedAnswer (.refl s))
  · exact .refl s

theorem writes_retryExpiry (s : State) : Writes s (retryExpiry s) :=
  writes_settle (writes_dispatchPass (writes_withMds (.refl s) rfl))

/-- A row that acts when its deadline has come, or its event can occur, and does nothing else. -/
theorem runs_settle_ite {c : Prop} [Decidable c] (h : Writes s u) : Runs s (if c then settle u else s) :=
  (writes_ite (writes_settle h) (.refl s)).runs

/-- The supply lines' rows, which do nothing where the line is already active. -/
theorem runs_ite_settle {c : Prop} [Decidable c] (h : Writes s u) : Runs s (if c then s else settle u) :=
  (writes_ite (.refl s) (writes_settle h)).runs

/-- Every command is made of writes and at most one frame queued. -/
theorem runs_exec {c : Instr} (h : exec c s = .next t) : Runs s t := by
  cases hcode : requestCode c with
  | some code =>
    rw [exec_eq_handOff hcode] at h
    cases h
    exact runs_handOff (keptBy_ownerReply c) s
  | none =>
    cases c <;> simp only [requestCode, reduceCtorEq] at hcode
    all_goals
      injection h with h
      subst h
    case exchangeBegin => exact (writes_ite (.refl s) (writes_beginExchange s)).runs
    case exchangeEnd received => exact runs_endExchange received s
    case unknownRequest => exact runs_handOffUnknown s
    case laneRound => exact runs_settle_ite (writes_roundExpiry (.refl s))
    case missedPoll => exact (writes_missedRow ..).runs
    case doorStatus | probeSetReport | controllerStatus | picked | dropped | abandon | submit | readyReport =>
      exact (writes_reportRow ..).runs
    case coldStart => exact (writes_settle (writes_coldStart (.refl s))).runs
    case warmRestart => exact (writes_settle (writes_warmRestart (.refl s))).runs
    case supplyFailActive => exact runs_ite_settle (writes_takeSupplyFail (.refl s))
    case supplyFailInactive => exact runs_settle_ite (writes_takeSupplyReturn (.refl s))
    case batteryLowActive => exact runs_ite_settle (writes_takeBatteryLow (.refl s))
    case batteryLowInactive => exact runs_settle_ite (writes_recordLine (.refl s))
    case consistencyChecks => exact runs_settle_ite (writes_makeChecks (.refl s))
    case rollCallCompletion => exact runs_settle_ite (writes_rollCallPassed (.refl s))
    case rollCallLimitExpiry => exact runs_settle_ite (writes_rollCallTimeout (.refl s))
    case dispatchRetryExpiry => exact (writes_ite (writes_retryExpiry s) (.refl s)).runs
    case sealLimitExpiry =>
      exact runs_settle_ite (writes_raiseAlarm (writes_doorOutcome (writes_placeDoor (writes_doorEnter (.refl s)))))
    case leafTravelLimitExpiry | unsealLimitExpiry => exact runs_settle_ite (writes_enterFault (.refl s))
    case openTimeWaitExpiry => exact runs_settle_ite (writes_raiseAlarm (writes_updDoor (.refl s)))
    case graceEnd | maskEnd | staleAlarmExpiry => exact runs_settle_ite (writes_evaluateRoom (.refl s))
    case accrualIntervalExpiry => exact runs_settle_ite (writes_accrualExpiry (.refl s))
    case frostIntervalExpiry => exact runs_settle_ite (writes_frostExpiry (writes_frostDue (.refl s)))
    case deferralExpiry =>
      exact runs_settle_ite
        (writes_ite (writes_allowancePass (writes_deferralExpires (.refl s))) (writes_deferralExpires (.refl s)))
    case pumpdownDeadlineExpiry => exact runs_settle_ite (writes_enterHeat (.refl s))
    case maxHeatExpiry => exact runs_settle_ite (writes_raiseAlarm (writes_enterDrip (.refl s)))
    case dripDeadlineExpiry => exact runs_settle_ite (writes_endDrip (.refl s))
    case refreezeDeadlineExpiry => exact runs_settle_ite (writes_endRefreeze (.refl s))

/-! ## Every step -/

/-- A property kept by every write, by every queued frame, and by taking a command off the queue, is kept by every step. -/
theorem step_keeps {P : State → Prop} (hwrite : ∀ s t, Write s t → P s → P t) (hpush : ∀ s t, Push s t → P s → P t)
    (hpending : ∀ s q, P s → P (s.withPending q)) (h : step s = .next t) (hs : P s) : P t := by
  unfold step at h
  split at h
  next =>
    cases h
    exact (writes_tick (.refl s)).keeps hwrite hs
  next rest _ => exact (runs_exec h).keeps hwrite hpush (hpending s rest hs)

end

/-! ## The queue of commands -/

theorem pending_of_write {s t : State} (h : Write s t) : t.pending = s.pending := by
  cases h <;> rfl

theorem pending_of_push {s t : State} (h : Push s t) : t.pending = s.pending := by
  cases h <;> rfl

/-- No command touches the queue of commands. -/
theorem pending_exec {c : Instr} {s t : State} (h : exec c s = .next t) : t.pending = s.pending :=
  (runs_exec h).keeps (P := fun u => u.pending = s.pending) (fun _ _ hw => (pending_of_write hw).trans)
    (fun _ _ hp => (pending_of_push hp).trans) rfl

/-- Every command answers a next state. -/
theorem exec_goes_on (c : Instr) (s : State) : ∃ t, exec c s = .next t := by
  cases c <;> exact ⟨_, rfl⟩

/-- Settles O1: by the definition of a step. -/
theorem stepRunsTheFrontCommand : Obligations.StepRunsTheFrontCommand := by
  intro c rest s hpending
  rw [step, hpending]

/-- Settles O2: on an empty queue a step is one second, whose clock is R188's (log entry 1). -/
theorem idleStepIsOneSecond : Obligations.IdleStepIsOneSecond := by
  intro s hpending
  rw [step, hpending]
  rfl

/-- Settles O3: every row answers a next state, and none of its writes is to the queue of commands. -/
theorem everyStepGoesOn : Obligations.EveryStepGoesOn := by
  refine ⟨fun s => ?step, fun c s => ?exec⟩
  case step =>
    unfold StepSafe step
    split
    · exact ⟨_, rfl⟩
    · exact exec_goes_on ..
  case exec =>
    obtain ⟨t, ht⟩ := exec_goes_on c s
    exact ⟨t, ht, pending_exec ht⟩

end Sys2Proof.Machine
end

section
/-! SUPPORT. The bounds that every step keeps (R4, R42, R125, R128, R145, R172, R173, R176), each write by write. -/

namespace Sys2Proof.Machine

/-! ## The sparse tables -/

/-- R76: a warm restart leaves the order entries in their places, and none of them free at generation 0. -/
theorem swfFrom_orderRestart {lo : Nat} {m : List (Nat × OrderEntry)} (h : swfFrom ({} : OrderEntry) lo m = true) :
    swfFrom ({} : OrderEntry) lo (m.map fun (i, e) => (i, { e with rec? := e.rec?.map orderRestart })) = true := by
  induction m generalizing lo with
  | nil => rfl
  | cons x m ih =>
    obtain ⟨i, e⟩ := x
    simp only [List.map_cons, swfFrom, Bool.and_eq_true, decide_eq_true_eq] at h ⊢
    obtain ⟨⟨hlo, hne⟩, hrest⟩ := h
    refine ⟨⟨hlo, fun hfree => hne ?_⟩, ih hrest⟩
    obtain ⟨hgen, hrec⟩ := OrderEntry.mk.inj hfree
    exact congrArg₂ OrderEntry.mk hgen (Option.map_eq_none_iff.1 hrec)

theorem tablesCanonical_write {s t : State} (h : Write s t) (hs : TablesCanonical s) : TablesCanonical t := by
  obtain ⟨hslots, hpallets, horders⟩ := hs
  cases h with
  | places b hb _ => exact ⟨(congrArg (swf .free) hb).trans hslots, hpallets, horders⟩
  | slot => exact ⟨swf_sset hslots, hpallets, horders⟩
  | slotMap => exact ⟨swf_filter _ hslots, hpallets, horders⟩
  | pallet | entry => exact ⟨hslots, swf_sset hpallets, horders⟩
  | order => exact ⟨hslots, hpallets, swf_sset horders⟩
  | dispatcher b hb => exact ⟨hslots, hpallets, (congrArg (swf {}) hb).trans horders⟩
  | ordersRestart => exact ⟨hslots, hpallets, swfFrom_orderRestart horders⟩
  | coldStart => exact ⟨rfl, rfl, rfl⟩
  | _ => exact ⟨hslots, hpallets, horders⟩

theorem tablesCanonical_push {s t : State} (h : Push s t) (hs : TablesCanonical s) : TablesCanonical t := by
  cases h <;> exact hs

/-- Settles O6: each write of a table keeps its canonical form. -/
theorem stepsKeepTablesCanonical : Obligations.StepsKeepTablesCanonical := fun _ _ hs h =>
  step_keeps (fun _ _ => tablesCanonical_write) (fun _ _ => tablesCanonical_push) (fun _ _ => id) h hs

/-! ## The link -/

theorem linkBounded_write {s t : State} (h : Write s t) (hs : LinkBounded s) : LinkBounded t := by
  obtain ⟨hurgent, hnormal, hanswers, hdiscards⟩ := hs
  cases h with
  | lkp b hwithin =>
    exact ⟨hwithin.urgent.trans hurgent, hwithin.normal.trans hnormal, hwithin.answers.trans hanswers,
      hwithin.discards.trans (max_le le_rfl hdiscards)⟩
  | coldStart => exact ⟨Nat.zero_le _, Nat.zero_le _, Nat.zero_le _, Nat.zero_le _⟩
  | _ => exact ⟨hurgent, hnormal, hanswers, hdiscards⟩

theorem length_concat_le {α : Type} {l : List α} {x : α} {n : Nat} (h : l.length < n) : (l ++ [x]).length ≤ n := by
  simpa using h

/-- A frame joins a queue below its bound. -/
theorem linkBounded_push {s t : State} (h : Push s t) (hs : LinkBounded s) : LinkBounded t := by
  obtain ⟨hurgent, hnormal, hanswers, hdiscards⟩ := hs
  cases h with
  | none => exact ⟨hurgent, hnormal, hanswers, hdiscards⟩
  | answer f rc results hready => exact ⟨hurgent, hnormal, length_concat_le (of_decide_eq_true hready), hdiscards⟩
  | urgent f hroom => exact ⟨length_concat_le hroom, hnormal, hanswers, hdiscards⟩
  | normal f hroom => exact ⟨hurgent, length_concat_le hroom, hanswers, hdiscards⟩

/-- Settles O7: no write lengthens a queue of the link, and a frame joins a queue only where it has a place. -/
theorem stepsKeepLinkBounds : Obligations.StepsKeepLinkBounds := fun _ _ hs h =>
  step_keeps (fun _ _ => linkBounded_write) (fun _ _ => linkBounded_push) (fun _ _ => id) h hs

/-! ## The alarm table -/

/-- R145: at most 64 records, one for a pair, raise counts 1 to 255, unlisted count at most 255. -/
def Alt.Bounded (a : Alt) : Prop :=
  a.records.length ≤ 64 ∧ a.unlisted ≤ 255 ∧ (∀ r ∈ a.records, 1 ≤ r.count ∧ r.count ≤ 255)
    ∧ a.records.Pairwise fun a b => ¬(a.kind = b.kind ∧ a.subject = b.subject)

theorem alarmsBounded_iff {s : State} : AlarmsBounded s ↔ s.alt.Bounded := Iff.rfl

/-- R148: a merged raise keeps the record's pair, and its count within 1 to 255. -/
theorem bounded_merge {a : Alt} (h : a.Bounded) (now : Time) (k : AlarmKind) (sub : Subject) (v : Option AlarmValue) :
    Alt.Bounded { a with records := a.records.map fun r => if r.isFor k sub then mergeRaise now v r else r } := by
  obtain ⟨hlength, hunlisted, hcounts, hpairs⟩ := h
  refine ⟨by simpa using hlength, hunlisted, fun q hq => ?counts, List.pairwise_map.2 (hpairs.imp fun {x y} hxy => ?pairs)⟩
  case counts =>
    obtain ⟨r, hr, rfl⟩ := List.mem_map.1 hq
    have hcount := hcounts r hr
    split
    · simp only [mergeRaise]
      omega
    · exact hcount
  case pairs =>
    have hkind (r : AlarmRec) : (if r.isFor k sub then mergeRaise now v r else r).kind = r.kind := by split <;> rfl
    have hsubject (r : AlarmRec) : (if r.isFor k sub then mergeRaise now v r else r).subject = r.subject := by split <;> rfl
    simpa only [hkind, hsubject] using hxy

/-- R149: a new record for a pair without one, in a table with a place free. -/
theorem bounded_append {a : Alt} (h : a.Bounded) {l : List AlarmRec} (hl : l.Sublist a.records) (hroom : l.length < 64) (now : Time)
    {k : AlarmKind} {sub : Subject} (hlacks : LacksPair k sub a.records) (v : Option AlarmValue) :
    Alt.Bounded { a with records := l ++ [newAlarm now k sub v] } := by
  obtain ⟨-, hunlisted, hcounts, hpairs⟩ := h
  refine ⟨length_concat_le hroom, hunlisted, fun q hq => ?counts, List.pairwise_append.2 ⟨hpairs.sublist hl, by simp, ?pairs⟩⟩
  case counts =>
    rcases List.mem_append.1 hq with hq | hq
    · exact hcounts q (hl.subset hq)
    · cases List.mem_singleton.1 hq
      exact ⟨le_rfl, (by decide : 1 ≤ 255)⟩
  case pairs =>
    intro q hq r hr
    cases List.mem_singleton.1 hr
    exact lacksPair_iff.1 hlacks q (hl.subset hq)

/-- R148, R149: a raise is merged, appended, put in the place of a CLEARED record, or counted as unlisted. -/
theorem bounded_raise {a : Alt} (h : a.Bounded) (now : Time) (k : AlarmKind) (sub : Subject) (v : Option AlarmValue) :
    (a.raise now k sub v).Bounded := by
  unfold Alt.raise
  split
  next => exact bounded_merge h ..
  next hnone =>
    have hlacks : LacksPair k sub a.records := fun q hq => by
      simpa using List.any_eq_false.1 (Bool.eq_false_of_not_eq_true hnone) q hq
    split
    next hroom => exact bounded_append h (List.Sublist.refl _) hroom now hlacks v
    next =>
      split
      next hcleared =>
        have hfewer : (a.records.eraseP (·.state = .cleared)).length < a.records.length := by
          obtain ⟨r, hr, hstate⟩ := List.any_eq_true.1 hcleared
          have hpos := List.length_pos_of_mem hr
          rw [List.length_eraseP_of_mem hr hstate]
          omega
        exact bounded_append h List.eraseP_sublist (hfewer.trans_le h.1) now hlacks v
      next => exact ⟨h.1, min_le_left _ _, h.2.2⟩

/-- R150, R153: a clear claim or an acknowledgement takes records away, and keeps the pairs and counts of the others. -/
theorem bounded_filterMap {a : Alt} (h : a.Bounded) {g : AlarmRec → Option AlarmRec} (hg : KeepsPair g) :
    Alt.Bounded { a with records := a.records.filterMap g } := by
  obtain ⟨hlength, hunlisted, hcounts, hpairs⟩ := h
  refine ⟨(List.length_filterMap_le ..).trans hlength, hunlisted, fun q hq => ?counts, List.pairwise_filterMap.2 (hpairs.imp ?pairs)⟩
  case counts =>
    obtain ⟨r, hr, hgr⟩ := List.mem_filterMap.1 hq
    obtain ⟨-, -, hcount⟩ := hg r q hgr
    exact hcount ▸ hcounts r hr
  case pairs =>
    intro x y hxy x' hx y' hy hsame
    obtain ⟨hxkind, hxsubject, -⟩ := hg x x' hx
    obtain ⟨hykind, hysubject, -⟩ := hg y y' hy
    exact hxy ⟨hxkind.symm.trans (hsame.1.trans hykind), hxsubject.symm.trans (hsame.2.trans hysubject)⟩

theorem alarmsBounded_write {s t : State} (h : Write s t) (hs : AlarmsBounded s) : AlarmsBounded t := by
  cases h with
  | raise k sub v => exact alarmsBounded_iff.2 (bounded_raise (alarmsBounded_iff.1 hs) s.now k sub v)
  | alarms g hpair => exact alarmsBounded_iff.2 (bounded_filterMap (alarmsBounded_iff.1 hs) hpair)
  | unlisted => exact ⟨hs.1, Nat.zero_le _, hs.2.2⟩
  | coldStart => exact ⟨Nat.zero_le _, Nat.zero_le _, List.forall_mem_nil _, .nil⟩
  | _ => exact hs

theorem alarmsBounded_push {s t : State} (h : Push s t) (hs : AlarmsBounded s) : AlarmsBounded t := by
  cases h <;> exact hs

/-- Settles O9: a raise finds its place within the bounds, and every other write of the table only takes away. -/
theorem stepsKeepAlarmBounds : Obligations.StepsKeepAlarmBounds := fun _ _ hs h =>
  step_keeps (fun _ _ => alarmsBounded_write) (fun _ _ => alarmsBounded_push) (fun _ _ => id) h hs

/-! ## The staging lanes -/

theorem lanesBounded_write {s t : State} (h : Write s t) (hs : LanesBounded s) : LanesBounded t := by
  cases h with
  | places b _ hb =>
    intro d
    show (b.lanes.get d).load ≤ 6
    rw [hb]
    exact hs d
  | stagingLane d f hload =>
    intro d'
    rw [stagingLane_updStagingLane]
    split
    · exact hload (hs d)
    · exact hs d'
  | coldStart strap =>
    intro d
    show ((State.coldStart strap s.pending).stagingLane d).load ≤ 6
    rw [stagingLane_coldStart]
    exact Nat.zero_le 6
  | _ => exact hs

theorem lanesBounded_push {s t : State} (h : Push s t) (hs : LanesBounded s) : LanesBounded t := by
  cases h <;> exact hs

/-- Settles O10: a reservation or a member joins a lane with a place free, and a commit turns one into the other. -/
theorem stepsKeepLaneCapacity : Obligations.StepsKeepLaneCapacity := fun _ _ hs h =>
  step_keeps (fun _ _ => lanesBounded_write) (fun _ _ => lanesBounded_push) (fun _ _ => id) h hs

/-! ## The heater allowance -/

/-- Where no evaporator takes allowance, no more hold it. -/
theorem allowanceUsed_le {s t : State} (h : ∀ e, (t.evap e).allowanceHeld = true → (s.evap e).allowanceHeld = true) :
    t.allowanceUsed ≤ s.allowanceUsed :=
  (List.monotone_filter_right _ h).length_le

/-- Where one evaporator takes allowance, one more holds it at most. -/
theorem allowanceUsed_le_succ {s t : State} (e : Fin 12)
    (h : ∀ g, g ≠ e → (t.evap g).allowanceHeld = true → (s.evap g).allowanceHeld = true) :
    t.allowanceUsed ≤ s.allowanceUsed + 1 := by
  have hsubset : (List.finRange 12).filter (fun g => (t.evap g).allowanceHeld) ⊆
      e :: (List.finRange 12).filter fun g => (s.evap g).allowanceHeld := by
    intro g hg
    obtain ⟨hmem, hheld⟩ := List.mem_filter.1 hg
    by_cases hge : g = e
    · exact hge ▸ List.mem_cons_self
    · exact List.mem_cons_of_mem _ (List.mem_filter.2 ⟨hmem, h g hge hheld⟩)
  exact (List.subperm_of_subset ((List.nodup_finRange 12).filter _) hsubset).length_le

theorem allowanceBounded_write {s t : State} (h : Write s t) (hs : AllowanceBounded s) : AllowanceBounded t := by
  obtain ⟨hmin, hmax, hused⟩ := hs
  cases h with
  | dfc b hallowance hevaps =>
    have hkept : (s.withDfc b).dfc.allowance = s.dfc.allowance := hallowance
    unfold AllowanceBounded
    rw [hkept]
    exact ⟨hmin, hmax, (allowanceUsed_le (s := s) (t := s.withDfc b) fun e => (hevaps e).held).trans hused⟩
  | grant e hroom =>
    refine ⟨hmin, hmax, (allowanceUsed_le_succ e fun g hge hheld => ?_).trans hroom⟩
    rwa [evap_updEvap, if_neg hge] at hheld
  | allowance n hrange hholders => exact ⟨hrange.1, hrange.2, hholders⟩
  | coldStart strap =>
    have hnone : (coldStarted strap s).allowanceUsed = 0 := allowanceUsed_coldStart strap s.pending
    exact ⟨(by decide : 1 ≤ 2), (by decide : 2 ≤ 4), hnone ▸ Nat.zero_le _⟩
  | _ => exact ⟨hmin, hmax, hused⟩

theorem allowanceBounded_push {s t : State} (h : Push s t) (hs : AllowanceBounded s) : AllowanceBounded t := by
  cases h <;> exact hs

/-- Settles O11: a grant is made where allowance is free, SITE_SET sets no less than is held, and every other write gives it up. -/
theorem stepsKeepHeaterAllowance : Obligations.StepsKeepHeaterAllowance := fun _ _ hs h =>
  step_keeps (fun _ _ => allowanceBounded_write) (fun _ _ => allowanceBounded_push) (fun _ _ => id) h hs

/-! ## Frost loads and exposures -/

/-- Frost loads are at most 1000 (R125). -/
def FrostBounded (s : State) : Prop := ∀ e, (s.evap e).frost ≤ 1000

theorem frostBounded_write {s t : State} (h : Write s t) (hs : FrostBounded s) : FrostBounded t := by
  cases h with
  | dfc b _ hevaps => exact fun e => (hevaps e).frost.trans (max_le le_rfl (hs e))
  | grant e =>
    intro g
    rw [evap_updEvap]
    split
    · exact hs e
    · exact hs g
  | coldStart strap =>
    intro e
    show ((State.coldStart strap s.pending).evap e).frost ≤ 1000
    rw [evap_coldStart]
    exact Nat.zero_le 1000
  | _ => exact hs

/-- The custody table is canonical and its live records' exposures are at most 65535 (R42). -/
def ExposuresBounded (s : State) : Prop :=
  swf {} s.ctb.entries = true ∧ ∀ h p, s.pallet? h = some p → p.exposure ≤ 65535

theorem exposuresBounded_write {s t : State} (h : Write s t) (hs : ExposuresBounded s) : ExposuresBounded t := by
  obtain ⟨hcanonical, hexposures⟩ := hs
  cases h with
  | pallet x f hf =>
    refine ⟨swf_sset hcanonical, fun k q hq => ?_⟩
    rw [pallet_updPallet hcanonical] at hq
    split at hq
    · obtain ⟨p, hp, rfl⟩ := Option.map_eq_some_iff.1 hq
      exact hf p (hexposures k p hp)
    · exact hexposures k q hq
  | entry i e he =>
    refine ⟨swf_sset hcanonical, fun k q hq => ?_⟩
    rw [pallet_setEntry hcanonical] at hq
    split at hq
    · split at hq
      · exact he q hq
      · cases hq
    · exact hexposures k q hq
  | coldStart strap =>
    refine ⟨rfl, fun k q hq => ?_⟩
    cases (pallet_coldStart strap s.pending k).symm.trans hq
  | _ => exact ⟨hcanonical, hexposures⟩

theorem frostBounded_push {s t : State} (h : Push s t) (hs : FrostBounded s) : FrostBounded t := by
  cases h <;> exact hs

theorem exposuresBounded_push {s t : State} (h : Push s t) (hs : ExposuresBounded s) : ExposuresBounded t := by
  cases h <;> exact hs

/-- Settles O13: frost is added up to a full load, and a record is admitted at 0 and charged up to the greatest exposure. -/
theorem stepsKeepLoads : Obligations.StepsKeepLoads := by
  intro s t htables hloads h
  obtain ⟨-, hcanonical, -⟩ := htables
  obtain ⟨hfrost, hexposures⟩ := hloads
  have hfrosts : FrostBounded t :=
    step_keeps (fun _ _ => frostBounded_write) (fun _ _ => frostBounded_push) (fun _ _ => id) h hfrost
  have hpallets : ExposuresBounded t :=
    step_keeps (fun _ _ => exposuresBounded_write) (fun _ _ => exposuresBounded_push) (fun _ _ => id) h ⟨hcanonical, hexposures⟩
  exact ⟨hfrosts, hpallets.2⟩

end Sys2Proof.Machine
end
